-- ==== Sys2Proof/Word.lean ====
section
/-! DEFINITION. The byte and the 16-bit word (rules R18, R64). Offsets, lengths and sizes are natural
numbers (rule R18) and have no type of their own. -/

namespace Sys2Proof

/-- `u8`: the byte of every space (R18, R64). -/
abbrev Byte := BitVec 8

/-- `u16`: load/init/play addresses, speeds, the operand of a 3-byte instruction (R8 `ADDR_W`). -/
abbrev Word := BitVec 16

end Sys2Proof
end

