-- ==== Sys2Proof/Config.lean ====
section
/-! DEFINITION. The configuration of rule R9, "an input of each command and constant during it" (R41).
The spec calls nothing undefined (93_implementation_defined.md), so there is no free value here. -/

namespace Sys2Proof

/-- `TRUNC_POLICY` (R9, R286): `raise` is the only admitted value; `emitPartial` is named and refused. -/
inductive TruncPolicy where
  | raise
  | emitPartial
  deriving DecidableEq, Repr

/-- The parameters NSFT leaves open, with the defaults of R9. UNVERIFIED (the spec's own general
knowledge, G1): the bytes of `magic`; see notes/assumptions/15.md. -/
structure Config where
  /-- `MAGIC`: the expected magic number (R9, R141). -/
  magic       : Vector Byte 5 := #v[0x4E#8, 0x45#8, 0x53#8, 0x4D#8, 0x1A#8]
  /-- `TRUNC_POLICY` (R277, R286). -/
  truncPolicy : TruncPolicy := .raise
  /-- `STRICT_MAGIC`: a bad magic is an error instead of a mark (R162). -/
  strictMagic : Bool := false
  /-- `CLIP_TO_64K`: `analyze` clips the code to `0x10000 - load_addr` bytes (R295). -/
  clipTo64k   : Bool := false
  /-- `DEFER_DISASM`: `analyze` keeps the raw code bytes and does not run DIS (R296). -/
  deferDisasm : Bool := false
  /-- `MAX_BUF_LEN`: the longest buffer a build holds; `none` is unbounded (R9, U17). -/
  maxBufLen   : Option Nat := none
  /-- `BRK_LEN`: the length the ROM gives opcode 0x00; 1 is the only admitted value (R9, R180, U16). -/
  brkLen      : Nat := 1
  deriving DecidableEq, Repr

end Sys2Proof
end

