-- ==== Sys2Proof/Syntax.lean ====
section
/-! DEFINITION. What the block decodes: addressing modes (R103), mnemonics (R104), operands (R34) and
the instructions, one constructor per documented row of spec/opcode_table.json. The 105 fallback rows
are the one instruction `unknown` of R172, whose argument is the row's opcode byte. -/

namespace Sys2Proof

/-- The addressing-mode enumeration, in the order of its ids 0 to 13 (R103). -/
inductive Mode where
  | unknown
  | IMM
  | ZP
  | ZPX
  | ZPY
  | ABS
  | ABX
  | ABY
  | IND
  | IZX
  | IZY
  | ACC
  | IMP
  | REL
  deriving DecidableEq, Repr

/-- The mnemonic enumeration, in the order of its ids 0 to 56 (R104). -/
inductive Mnemonic where
  | unknown
  | ADC | AND | ASL | BCC | BCS | BEQ | BIT | BMI
  | BNE | BPL | BRK | BVC | BVS | CLC | CLD | CLI
  | CLV | CMP | CPX | CPY | DEC | DEX | DEY | EOR
  | INC | INX | INY | JMP | JSR | LDA | LDX | LDY
  | LSR | NOP | ORA | PHA | PHP | PLA | PLP | ROL
  | ROR | RTI | RTS | SBC | SEC | SED | SEI | STA
  | STX | STY | TAX | TAY | TSX | TXA | TXS | TYA
  deriving DecidableEq, Repr

/-- The operand of an instruction record: "absent, 8-bit, or 16-bit little-endian value" (R34). -/
inductive Operand where
  | absent
  | u8 (v : Byte)
  | u16 (v : Word)
  deriving DecidableEq, Repr

/-- The instructions DIS names. They are decoded, never executed (R7). The argument is the operand as
read: `v` the one byte of a 2-byte form, `w` the little-endian word of a 3-byte form (R98). -/
inductive Instr where
  -- ADC, add with carry (R200)
  | adcImm (v : Byte)
  | adcZp (v : Byte)
  | adcZpx (v : Byte)
  | adcAbs (w : Word)
  | adcAbx (w : Word)
  | adcAby (w : Word)
  | adcIzx (v : Byte)
  | adcIzy (v : Byte)
  -- SBC, subtract with carry (R201)
  | sbcImm (v : Byte)
  | sbcZp (v : Byte)
  | sbcZpx (v : Byte)
  | sbcAbs (w : Word)
  | sbcAbx (w : Word)
  | sbcAby (w : Word)
  | sbcIzx (v : Byte)
  | sbcIzy (v : Byte)
  -- AND, logical AND (R202)
  | andImm (v : Byte)
  | andZp (v : Byte)
  | andZpx (v : Byte)
  | andAbs (w : Word)
  | andAbx (w : Word)
  | andAby (w : Word)
  | andIzx (v : Byte)
  | andIzy (v : Byte)
  -- ORA, logical inclusive OR (R203)
  | oraImm (v : Byte)
  | oraZp (v : Byte)
  | oraZpx (v : Byte)
  | oraAbs (w : Word)
  | oraAbx (w : Word)
  | oraAby (w : Word)
  | oraIzx (v : Byte)
  | oraIzy (v : Byte)
  -- EOR, exclusive OR (R204)
  | eorImm (v : Byte)
  | eorZp (v : Byte)
  | eorZpx (v : Byte)
  | eorAbs (w : Word)
  | eorAbx (w : Word)
  | eorAby (w : Word)
  | eorIzx (v : Byte)
  | eorIzy (v : Byte)
  -- BIT, bit test (R205)
  | bitZp (v : Byte)
  | bitAbs (w : Word)
  -- CMP, compare accumulator (R206)
  | cmpImm (v : Byte)
  | cmpZp (v : Byte)
  | cmpZpx (v : Byte)
  | cmpAbs (w : Word)
  | cmpAbx (w : Word)
  | cmpAby (w : Word)
  | cmpIzx (v : Byte)
  | cmpIzy (v : Byte)
  -- CPX, compare X register (R207)
  | cpxImm (v : Byte)
  | cpxZp (v : Byte)
  | cpxAbs (w : Word)
  -- CPY, compare Y register (R208)
  | cpyImm (v : Byte)
  | cpyZp (v : Byte)
  | cpyAbs (w : Word)
  -- ASL, arithmetic shift left (R210)
  | aslAcc
  | aslZp (v : Byte)
  | aslZpx (v : Byte)
  | aslAbs (w : Word)
  | aslAbx (w : Word)
  -- LSR, logical shift right (R211)
  | lsrAcc
  | lsrZp (v : Byte)
  | lsrZpx (v : Byte)
  | lsrAbs (w : Word)
  | lsrAbx (w : Word)
  -- ROL, rotate left (R212)
  | rolAcc
  | rolZp (v : Byte)
  | rolZpx (v : Byte)
  | rolAbs (w : Word)
  | rolAbx (w : Word)
  -- ROR, rotate right (R213)
  | rorAcc
  | rorZp (v : Byte)
  | rorZpx (v : Byte)
  | rorAbs (w : Word)
  | rorAbx (w : Word)
  -- INC, increment memory (R214)
  | incZp (v : Byte)
  | incZpx (v : Byte)
  | incAbs (w : Word)
  | incAbx (w : Word)
  -- DEC, decrement memory (R215)
  | decZp (v : Byte)
  | decZpx (v : Byte)
  | decAbs (w : Word)
  | decAbx (w : Word)
  -- INX, increment X (R216)
  | inx
  -- INY, increment Y (R217)
  | iny
  -- DEX, decrement X (R218)
  | dex
  -- DEY, decrement Y (R219)
  | dey
  -- LDA, load accumulator (R220)
  | ldaImm (v : Byte)
  | ldaZp (v : Byte)
  | ldaZpx (v : Byte)
  | ldaAbs (w : Word)
  | ldaAbx (w : Word)
  | ldaAby (w : Word)
  | ldaIzx (v : Byte)
  | ldaIzy (v : Byte)
  -- LDX, load X register (R221)
  | ldxImm (v : Byte)
  | ldxZp (v : Byte)
  | ldxZpy (v : Byte)
  | ldxAbs (w : Word)
  | ldxAby (w : Word)
  -- LDY, load Y register (R222)
  | ldyImm (v : Byte)
  | ldyZp (v : Byte)
  | ldyZpx (v : Byte)
  | ldyAbs (w : Word)
  | ldyAbx (w : Word)
  -- STA, store accumulator (R223)
  | staZp (v : Byte)
  | staZpx (v : Byte)
  | staAbs (w : Word)
  | staAbx (w : Word)
  | staAby (w : Word)
  | staIzx (v : Byte)
  | staIzy (v : Byte)
  -- STX, store X register (R224)
  | stxZp (v : Byte)
  | stxZpy (v : Byte)
  | stxAbs (w : Word)
  -- STY, store Y register (R225)
  | styZp (v : Byte)
  | styZpx (v : Byte)
  | styAbs (w : Word)
  -- TAX, transfer A to X (R226)
  | tax
  -- TAY, transfer A to Y (R227)
  | tay
  -- TSX, transfer stack pointer to X (R228)
  | tsx
  -- TXA, transfer X to A (R229)
  | txa
  -- TXS, transfer X to stack pointer (R230)
  | txs
  -- TYA, transfer Y to A (R231)
  | tya
  -- PHA, push accumulator (R232)
  | pha
  -- PHP, push processor status (R233)
  | php
  -- PLA, pull accumulator (R234)
  | pla
  -- PLP, pull processor status (R235)
  | plp
  -- JMP, jump (R240)
  | jmpAbs (w : Word)
  | jmpInd (w : Word)
  -- JSR, jump to subroutine (R241)
  | jsrAbs (w : Word)
  -- RTS, return from subroutine (R242)
  | rts
  -- RTI, return from interrupt (R243)
  | rti
  -- BRK, force break (R244)
  | brk
  -- NOP, no operation (R245)
  | nop
  -- BCC, branch if carry clear (R246)
  | bccRel (v : Byte)
  -- BCS, branch if carry set (R247)
  | bcsRel (v : Byte)
  -- BEQ, branch if equal (R248)
  | beqRel (v : Byte)
  -- BMI, branch if minus (R249)
  | bmiRel (v : Byte)
  -- BNE, branch if not equal (R250)
  | bneRel (v : Byte)
  -- BPL, branch if plus (R251)
  | bplRel (v : Byte)
  -- BVC, branch if overflow clear (R252)
  | bvcRel (v : Byte)
  -- BVS, branch if overflow set (R253)
  | bvsRel (v : Byte)
  -- CLC, clear carry (R254)
  | clc
  -- CLD, clear decimal mode (R255)
  | cld
  -- CLI, clear interrupt disable (R256)
  | cli
  -- CLV, clear overflow (R257)
  | clv
  -- SEC, set carry (R258)
  | sec
  -- SED, set decimal mode (R259)
  | sed
  -- SEI, set interrupt disable (R260)
  | sei
  -- the fallback entry (R172): `b` is the opcode byte it stands for (one of the 105 of R108)
  | unknown (b : Byte)
  deriving DecidableEq, Repr

end Sys2Proof
end

