-- ==== Sys2Proof/Decode.lean ====
section
/-! DEFINITION. The opcode ROM (R105, R107), the opcode map (R95, R106), the decoder and the encoder.
The ROM words and the map are transcribed from two different tables of the spec; that they agree is a
statement about the model, not a convention of it. -/

namespace Sys2Proof

/-! ## Byte order (R67) and operands (R98, R103) -/

/-- The value of two bytes in buffer order: the byte at the lower offset is the less significant (R67). -/
def wordLE (lo hi : Byte) : Word := hi ++ lo

/-- The byte of a word at the lower offset. -/
def lowByte (w : Word) : Byte := w.extractLsb' 0 8

/-- The byte of a word at the higher offset. -/
def highByte (w : Word) : Byte := w.extractLsb' 8 8

/-- The length of an instruction by its mode (R103, R173). -/
def Mode.length : Mode → Nat
  | .unknown | .ACC | .IMP => 1
  | .IMM | .ZP | .ZPX | .ZPY | .IZX | .IZY | .REL => 2
  | .ABS | .ABX | .ABY | .IND => 3

/-- The operand's bytes in the order they stand after the opcode (R95, R98). -/
def Operand.bytes : Operand → List Byte
  | .absent => []
  | .u8 v => [v]
  | .u16 w => [lowByte w, highByte w]

/-- Operand assembly on the length alone (R98, R99, R275): no sign extension, scaling or base. -/
def operandOf (len : Nat) (b1 b2 : Byte) : Operand :=
  match len with
  | 2 => .u8 b1
  | 3 => .u16 (wordLE b1 b2)
  | _ => .absent

/-! ## The opcode ROM -/

/-- Modes in the order of their ids (R103). -/
def modeById : List Mode :=
  [.unknown, .IMM, .ZP, .ZPX, .ZPY, .ABS, .ABX, .ABY, .IND, .IZX, .IZY, .ACC, .IMP, .REL]

/-- Mnemonics in the order of their ids (R104). -/
def mnemonicById : List Mnemonic :=
  [.unknown,
   .ADC, .AND, .ASL, .BCC, .BCS, .BEQ, .BIT, .BMI,
   .BNE, .BPL, .BRK, .BVC, .BVS, .CLC, .CLD, .CLI,
   .CLV, .CMP, .CPX, .CPY, .DEC, .DEX, .DEY, .EOR,
   .INC, .INX, .INY, .JMP, .JSR, .LDA, .LDX, .LDY,
   .LSR, .NOP, .ORA, .PHA, .PHP, .PLA, .PLP, .ROL,
   .ROR, .RTI, .RTS, .SBC, .SEC, .SED, .SEI, .STA,
   .STX, .STY, .TAX, .TAY, .TSX, .TXA, .TXS, .TYA]

/-- The mode's id: its place in R103's list. -/
def Mode.id (m : Mode) : Nat := modeById.idxOf m

/-- The mnemonic's id: its place in R104's list. -/
def Mnemonic.id (m : Mnemonic) : Nat := mnemonicById.idxOf m

/-- A ROM entry, "a (mnemonic, addressing-mode, length) triple" (R170). -/
structure RomEntry where
  mn   : Mnemonic
  mode : Mode
  len  : Nat
  deriving DecidableEq, Repr

/-- The 256 ROM words of R107, one row of sixteen per high nibble. -/
def romWords : List Nat :=
  [0x2F1, 0x8E6, 0x001, 0x001, 0x001, 0x8CA, 0x0CA, 0x001, 0x971, 0x8C6, 0x0ED, 0x001, 0x001, 0x8D7, 0x0D7, 0x001] ++
  [0x2B6, 0x8EA, 0x001, 0x001, 0x001, 0x8CE, 0x0CE, 0x001, 0x3B1, 0x8DF, 0x001, 0x001, 0x001, 0x8DB, 0x0DB, 0x001] ++
  [0x757, 0x0A6, 0x001, 0x001, 0x1CA, 0x08A, 0xA0A, 0x001, 0x9F1, 0x086, 0xA2D, 0x001, 0x1D7, 0x097, 0xA17, 0x001] ++
  [0x236, 0x0AA, 0x001, 0x001, 0x001, 0x08E, 0xA0E, 0x001, 0xB71, 0x09F, 0x001, 0x001, 0x001, 0x09B, 0xA1B, 0x001] ++
  [0xAB1, 0x626, 0x001, 0x001, 0x001, 0x60A, 0x84A, 0x001, 0x931, 0x606, 0x86D, 0x001, 0x717, 0x617, 0x857, 0x001] ++
  [0x336, 0x62A, 0x001, 0x001, 0x001, 0x60E, 0x84E, 0x001, 0x431, 0x61F, 0x001, 0x001, 0x001, 0x61B, 0x85B, 0x001] ++
  [0xAF1, 0x066, 0x001, 0x001, 0x001, 0x04A, 0xA4A, 0x001, 0x9B1, 0x046, 0xA6D, 0x001, 0x723, 0x057, 0xA57, 0x001] ++
  [0x376, 0x06A, 0x001, 0x001, 0x001, 0x04E, 0xA4E, 0x001, 0xBF1, 0x05F, 0x001, 0x001, 0x001, 0x05B, 0xA5B, 0x001] ++
  [0x001, 0xC26, 0x001, 0x001, 0xC8A, 0xC0A, 0xC4A, 0x001, 0x5F1, 0x001, 0xDB1, 0x001, 0xC97, 0xC17, 0xC57, 0x001] ++
  [0x136, 0xC2A, 0x001, 0x001, 0xC8E, 0xC0E, 0xC52, 0x001, 0xE31, 0xC1F, 0xDF1, 0x001, 0x001, 0xC1B, 0x001, 0x001] ++
  [0x806, 0x7A6, 0x7C6, 0x001, 0x80A, 0x78A, 0x7CA, 0x001, 0xD31, 0x786, 0xCF1, 0x001, 0x817, 0x797, 0x7D7, 0x001] ++
  [0x176, 0x7AA, 0x001, 0x001, 0x80E, 0x78E, 0x7D2, 0x001, 0x471, 0x79F, 0xD71, 0x001, 0x81B, 0x79B, 0x7DF, 0x001] ++
  [0x506, 0x4A6, 0x001, 0x001, 0x50A, 0x48A, 0x54A, 0x001, 0x6F1, 0x486, 0x5B1, 0x001, 0x517, 0x497, 0x557, 0x001] ++
  [0x276, 0x4AA, 0x001, 0x001, 0x001, 0x48E, 0x54E, 0x001, 0x3F1, 0x49F, 0x001, 0x001, 0x001, 0x49B, 0x55B, 0x001] ++
  [0x4C6, 0xB26, 0x001, 0x001, 0x4CA, 0xB0A, 0x64A, 0x001, 0x6B1, 0xB06, 0x8B1, 0x001, 0x4D7, 0xB17, 0x657, 0x001] ++
  [0x1B6, 0xB2A, 0x001, 0x001, 0x001, 0xB0E, 0x64E, 0x001, 0xBB1, 0xB1F, 0x001, 0x001, 0x001, 0xB1B, 0x65B, 0x001]

/-- The packed word stored for an opcode byte (R105, R107). -/
def romWord (b : Byte) : BitVec 12 := BitVec.ofNat 12 (romWords.getD b.toNat 0x001)

/-- The triple a word packs: bits 11:6 mnemonic id, 5:2 mode id, 1:0 length (R105). The ids that name
nothing never occur (U18, notes/assumptions/14.md) and read as the fallback's. -/
def unpackRom (w : BitVec 12) : RomEntry where
  mn   := mnemonicById.getD (w.toNat / 64) .unknown
  mode := modeById.getD (w.toNat / 4 % 16) .unknown
  len  := w.toNat % 4

/-- The word of a triple (R105). -/
def RomEntry.pack (e : RomEntry) : BitVec 12 := BitVec.ofNat 12 (e.mn.id * 64 + e.mode.id * 4 + e.len)

/-- `ROM[b]`: "a total, static mapping from every possible byte value" (R170). -/
def rom (b : Byte) : RomEntry := unpackRom (romWord b)

/-! ## The opcode map -/

/-- A cell of the opcode map: the instruction of that byte, by format F1, F2 or F3 (R95), or no
documented instruction (the `·` of R106). -/
inductive Cell where
  | no
  | f1 (i : Instr)
  | f2 (mk : Byte → Instr)
  | f3 (mk : Word → Instr)

open Cell Instr in
/-- Row 0x of the opcode map (R106). -/
def opcodeRow0 : List Cell :=
  [f1 brk, f2 oraIzx, no, no, no, f2 oraZp, f2 aslZp, no,
   f1 php, f2 oraImm, f1 aslAcc, no, no, f3 oraAbs, f3 aslAbs, no]

open Cell Instr in
/-- Row 1x of the opcode map (R106). -/
def opcodeRow1 : List Cell :=
  [f2 bplRel, f2 oraIzy, no, no, no, f2 oraZpx, f2 aslZpx, no,
   f1 clc, f3 oraAby, no, no, no, f3 oraAbx, f3 aslAbx, no]

open Cell Instr in
/-- Row 2x of the opcode map (R106). -/
def opcodeRow2 : List Cell :=
  [f3 jsrAbs, f2 andIzx, no, no, f2 bitZp, f2 andZp, f2 rolZp, no,
   f1 plp, f2 andImm, f1 rolAcc, no, f3 bitAbs, f3 andAbs, f3 rolAbs, no]

open Cell Instr in
/-- Row 3x of the opcode map (R106). -/
def opcodeRow3 : List Cell :=
  [f2 bmiRel, f2 andIzy, no, no, no, f2 andZpx, f2 rolZpx, no,
   f1 sec, f3 andAby, no, no, no, f3 andAbx, f3 rolAbx, no]

open Cell Instr in
/-- Row 4x of the opcode map (R106). -/
def opcodeRow4 : List Cell :=
  [f1 rti, f2 eorIzx, no, no, no, f2 eorZp, f2 lsrZp, no,
   f1 pha, f2 eorImm, f1 lsrAcc, no, f3 jmpAbs, f3 eorAbs, f3 lsrAbs, no]

open Cell Instr in
/-- Row 5x of the opcode map (R106). -/
def opcodeRow5 : List Cell :=
  [f2 bvcRel, f2 eorIzy, no, no, no, f2 eorZpx, f2 lsrZpx, no,
   f1 cli, f3 eorAby, no, no, no, f3 eorAbx, f3 lsrAbx, no]

open Cell Instr in
/-- Row 6x of the opcode map (R106). -/
def opcodeRow6 : List Cell :=
  [f1 rts, f2 adcIzx, no, no, no, f2 adcZp, f2 rorZp, no,
   f1 pla, f2 adcImm, f1 rorAcc, no, f3 jmpInd, f3 adcAbs, f3 rorAbs, no]

open Cell Instr in
/-- Row 7x of the opcode map (R106). -/
def opcodeRow7 : List Cell :=
  [f2 bvsRel, f2 adcIzy, no, no, no, f2 adcZpx, f2 rorZpx, no,
   f1 sei, f3 adcAby, no, no, no, f3 adcAbx, f3 rorAbx, no]

open Cell Instr in
/-- Row 8x of the opcode map (R106). -/
def opcodeRow8 : List Cell :=
  [no, f2 staIzx, no, no, f2 styZp, f2 staZp, f2 stxZp, no,
   f1 dey, no, f1 txa, no, f3 styAbs, f3 staAbs, f3 stxAbs, no]

open Cell Instr in
/-- Row 9x of the opcode map (R106). -/
def opcodeRow9 : List Cell :=
  [f2 bccRel, f2 staIzy, no, no, f2 styZpx, f2 staZpx, f2 stxZpy, no,
   f1 tya, f3 staAby, f1 txs, no, no, f3 staAbx, no, no]

open Cell Instr in
/-- Row Ax of the opcode map (R106). -/
def opcodeRowA : List Cell :=
  [f2 ldyImm, f2 ldaIzx, f2 ldxImm, no, f2 ldyZp, f2 ldaZp, f2 ldxZp, no,
   f1 tay, f2 ldaImm, f1 tax, no, f3 ldyAbs, f3 ldaAbs, f3 ldxAbs, no]

open Cell Instr in
/-- Row Bx of the opcode map (R106). -/
def opcodeRowB : List Cell :=
  [f2 bcsRel, f2 ldaIzy, no, no, f2 ldyZpx, f2 ldaZpx, f2 ldxZpy, no,
   f1 clv, f3 ldaAby, f1 tsx, no, f3 ldyAbx, f3 ldaAbx, f3 ldxAby, no]

open Cell Instr in
/-- Row Cx of the opcode map (R106). -/
def opcodeRowC : List Cell :=
  [f2 cpyImm, f2 cmpIzx, no, no, f2 cpyZp, f2 cmpZp, f2 decZp, no,
   f1 iny, f2 cmpImm, f1 dex, no, f3 cpyAbs, f3 cmpAbs, f3 decAbs, no]

open Cell Instr in
/-- Row Dx of the opcode map (R106). -/
def opcodeRowD : List Cell :=
  [f2 bneRel, f2 cmpIzy, no, no, no, f2 cmpZpx, f2 decZpx, no,
   f1 cld, f3 cmpAby, no, no, no, f3 cmpAbx, f3 decAbx, no]

open Cell Instr in
/-- Row Ex of the opcode map (R106). -/
def opcodeRowE : List Cell :=
  [f2 cpxImm, f2 sbcIzx, no, no, f2 cpxZp, f2 sbcZp, f2 incZp, no,
   f1 inx, f2 sbcImm, f1 nop, no, f3 cpxAbs, f3 sbcAbs, f3 incAbs, no]

open Cell Instr in
/-- Row Fx of the opcode map (R106). -/
def opcodeRowF : List Cell :=
  [f2 beqRel, f2 sbcIzy, no, no, no, f2 sbcZpx, f2 incZpx, no,
   f1 sed, f3 sbcAby, no, no, no, f3 sbcAbx, f3 incAbx, no]

/-- The opcode map of R106: row = high nibble, column = low nibble. -/
def opcodeMap : List (List Cell) :=
  [opcodeRow0, opcodeRow1, opcodeRow2, opcodeRow3, opcodeRow4, opcodeRow5, opcodeRow6, opcodeRow7, opcodeRow8, opcodeRow9, opcodeRowA, opcodeRowB, opcodeRowC, opcodeRowD, opcodeRowE, opcodeRowF]

/-- The instruction of an opcode byte followed by `b1`, `b2` (of which its format uses none, one or
both); the fallback where the map has no instruction (R172). -/
def instrOf (b b1 b2 : Byte) : Instr :=
  match (opcodeMap.getD (b.toNat / 16) []).getD (b.toNat % 16) .no with
  | .no => .unknown b
  | .f1 i => i
  | .f2 mk => mk b1
  | .f3 mk => mk (wordLE b1 b2)

/-! ## Decoder -/

/-- Why bytes are no instruction. No opcode byte is illegal (R108), so a byte string is rejected only
for being too short. -/
inductive DecodeError where
  /-- there is no opcode byte -/
  | noBytes
  /-- the ROM's length for `opcode` passes the end of the `available` bytes -/
  | truncated (opcode : Byte) (len available : Nat)
  deriving DecidableEq, Repr

/-- What a byte string decodes to: an instruction and the bytes after it, or a named rejection. -/
inductive Decoded where
  | ok (i : Instr) (rest : List Byte)
  | reject (e : DecodeError)
  deriving DecidableEq, Repr

/-- The decoder. The length comes "by the ROM alone", after one byte (R97); then the operand bytes follow
in ascending order (R68). -/
def decode : List Byte → Decoded
  | [] => .reject .noBytes
  | b :: rest =>
    if rest.length + 1 < (rom b).len then .reject (.truncated b (rom b).len (rest.length + 1))
    else .ok (instrOf b (rest.getD 0 0) (rest.getD 1 0)) (rest.drop ((rom b).len - 1))

/-- The host's numbering of an instruction's bits: byte `k` is bits `8k+7..8k`, bits from `nbits` up are 0;
three bytes (`MAX_ILEN`, R8) are given to the decoder. -/
def tableBytes (nbits w : Nat) : List Byte :=
  let v := w % 2 ^ nbits
  [BitVec.ofNat 8 v, BitVec.ofNat 8 (v / 256), BitVec.ofNat 8 (v / 65536)]

/-- The instruction the decoder reads from table word `w`. -/
def decodeTableWord (nbits w : Nat) : Option Instr :=
  match decode (tableBytes nbits w) with
  | .ok i _ => some i
  | .reject _ => none

/-! ## Encoder -/

/-- The opcode byte and the operand of an instruction, by the rules of the ISA family files
(R200 to R260) and R172. -/
def Instr.parts : Instr → Byte × Operand
  | .adcImm v => (0x69, .u8 v)
  | .adcZp v => (0x65, .u8 v)
  | .adcZpx v => (0x75, .u8 v)
  | .adcAbs w => (0x6D, .u16 w)
  | .adcAbx w => (0x7D, .u16 w)
  | .adcAby w => (0x79, .u16 w)
  | .adcIzx v => (0x61, .u8 v)
  | .adcIzy v => (0x71, .u8 v)
  | .sbcImm v => (0xE9, .u8 v)
  | .sbcZp v => (0xE5, .u8 v)
  | .sbcZpx v => (0xF5, .u8 v)
  | .sbcAbs w => (0xED, .u16 w)
  | .sbcAbx w => (0xFD, .u16 w)
  | .sbcAby w => (0xF9, .u16 w)
  | .sbcIzx v => (0xE1, .u8 v)
  | .sbcIzy v => (0xF1, .u8 v)
  | .andImm v => (0x29, .u8 v)
  | .andZp v => (0x25, .u8 v)
  | .andZpx v => (0x35, .u8 v)
  | .andAbs w => (0x2D, .u16 w)
  | .andAbx w => (0x3D, .u16 w)
  | .andAby w => (0x39, .u16 w)
  | .andIzx v => (0x21, .u8 v)
  | .andIzy v => (0x31, .u8 v)
  | .oraImm v => (0x09, .u8 v)
  | .oraZp v => (0x05, .u8 v)
  | .oraZpx v => (0x15, .u8 v)
  | .oraAbs w => (0x0D, .u16 w)
  | .oraAbx w => (0x1D, .u16 w)
  | .oraAby w => (0x19, .u16 w)
  | .oraIzx v => (0x01, .u8 v)
  | .oraIzy v => (0x11, .u8 v)
  | .eorImm v => (0x49, .u8 v)
  | .eorZp v => (0x45, .u8 v)
  | .eorZpx v => (0x55, .u8 v)
  | .eorAbs w => (0x4D, .u16 w)
  | .eorAbx w => (0x5D, .u16 w)
  | .eorAby w => (0x59, .u16 w)
  | .eorIzx v => (0x41, .u8 v)
  | .eorIzy v => (0x51, .u8 v)
  | .bitZp v => (0x24, .u8 v)
  | .bitAbs w => (0x2C, .u16 w)
  | .cmpImm v => (0xC9, .u8 v)
  | .cmpZp v => (0xC5, .u8 v)
  | .cmpZpx v => (0xD5, .u8 v)
  | .cmpAbs w => (0xCD, .u16 w)
  | .cmpAbx w => (0xDD, .u16 w)
  | .cmpAby w => (0xD9, .u16 w)
  | .cmpIzx v => (0xC1, .u8 v)
  | .cmpIzy v => (0xD1, .u8 v)
  | .cpxImm v => (0xE0, .u8 v)
  | .cpxZp v => (0xE4, .u8 v)
  | .cpxAbs w => (0xEC, .u16 w)
  | .cpyImm v => (0xC0, .u8 v)
  | .cpyZp v => (0xC4, .u8 v)
  | .cpyAbs w => (0xCC, .u16 w)
  | .aslAcc => (0x0A, .absent)
  | .aslZp v => (0x06, .u8 v)
  | .aslZpx v => (0x16, .u8 v)
  | .aslAbs w => (0x0E, .u16 w)
  | .aslAbx w => (0x1E, .u16 w)
  | .lsrAcc => (0x4A, .absent)
  | .lsrZp v => (0x46, .u8 v)
  | .lsrZpx v => (0x56, .u8 v)
  | .lsrAbs w => (0x4E, .u16 w)
  | .lsrAbx w => (0x5E, .u16 w)
  | .rolAcc => (0x2A, .absent)
  | .rolZp v => (0x26, .u8 v)
  | .rolZpx v => (0x36, .u8 v)
  | .rolAbs w => (0x2E, .u16 w)
  | .rolAbx w => (0x3E, .u16 w)
  | .rorAcc => (0x6A, .absent)
  | .rorZp v => (0x66, .u8 v)
  | .rorZpx v => (0x76, .u8 v)
  | .rorAbs w => (0x6E, .u16 w)
  | .rorAbx w => (0x7E, .u16 w)
  | .incZp v => (0xE6, .u8 v)
  | .incZpx v => (0xF6, .u8 v)
  | .incAbs w => (0xEE, .u16 w)
  | .incAbx w => (0xFE, .u16 w)
  | .decZp v => (0xC6, .u8 v)
  | .decZpx v => (0xD6, .u8 v)
  | .decAbs w => (0xCE, .u16 w)
  | .decAbx w => (0xDE, .u16 w)
  | .inx => (0xE8, .absent)
  | .iny => (0xC8, .absent)
  | .dex => (0xCA, .absent)
  | .dey => (0x88, .absent)
  | .ldaImm v => (0xA9, .u8 v)
  | .ldaZp v => (0xA5, .u8 v)
  | .ldaZpx v => (0xB5, .u8 v)
  | .ldaAbs w => (0xAD, .u16 w)
  | .ldaAbx w => (0xBD, .u16 w)
  | .ldaAby w => (0xB9, .u16 w)
  | .ldaIzx v => (0xA1, .u8 v)
  | .ldaIzy v => (0xB1, .u8 v)
  | .ldxImm v => (0xA2, .u8 v)
  | .ldxZp v => (0xA6, .u8 v)
  | .ldxZpy v => (0xB6, .u8 v)
  | .ldxAbs w => (0xAE, .u16 w)
  | .ldxAby w => (0xBE, .u16 w)
  | .ldyImm v => (0xA0, .u8 v)
  | .ldyZp v => (0xA4, .u8 v)
  | .ldyZpx v => (0xB4, .u8 v)
  | .ldyAbs w => (0xAC, .u16 w)
  | .ldyAbx w => (0xBC, .u16 w)
  | .staZp v => (0x85, .u8 v)
  | .staZpx v => (0x95, .u8 v)
  | .staAbs w => (0x8D, .u16 w)
  | .staAbx w => (0x9D, .u16 w)
  | .staAby w => (0x99, .u16 w)
  | .staIzx v => (0x81, .u8 v)
  | .staIzy v => (0x91, .u8 v)
  | .stxZp v => (0x86, .u8 v)
  | .stxZpy v => (0x96, .u8 v)
  | .stxAbs w => (0x8E, .u16 w)
  | .styZp v => (0x84, .u8 v)
  | .styZpx v => (0x94, .u8 v)
  | .styAbs w => (0x8C, .u16 w)
  | .tax => (0xAA, .absent)
  | .tay => (0xA8, .absent)
  | .tsx => (0xBA, .absent)
  | .txa => (0x8A, .absent)
  | .txs => (0x9A, .absent)
  | .tya => (0x98, .absent)
  | .pha => (0x48, .absent)
  | .php => (0x08, .absent)
  | .pla => (0x68, .absent)
  | .plp => (0x28, .absent)
  | .jmpAbs w => (0x4C, .u16 w)
  | .jmpInd w => (0x6C, .u16 w)
  | .jsrAbs w => (0x20, .u16 w)
  | .rts => (0x60, .absent)
  | .rti => (0x40, .absent)
  | .brk => (0x00, .absent)
  | .nop => (0xEA, .absent)
  | .bccRel v => (0x90, .u8 v)
  | .bcsRel v => (0xB0, .u8 v)
  | .beqRel v => (0xF0, .u8 v)
  | .bmiRel v => (0x30, .u8 v)
  | .bneRel v => (0xD0, .u8 v)
  | .bplRel v => (0x10, .u8 v)
  | .bvcRel v => (0x50, .u8 v)
  | .bvsRel v => (0x70, .u8 v)
  | .clc => (0x18, .absent)
  | .cld => (0xD8, .absent)
  | .cli => (0x58, .absent)
  | .clv => (0xB8, .absent)
  | .sec => (0x38, .absent)
  | .sed => (0xF8, .absent)
  | .sei => (0x78, .absent)
  | .unknown b => (b, .absent)

/-- The opcode byte: "the whole of byte 0" (R96). -/
def Instr.opcode (i : Instr) : Byte := i.parts.1

/-- The operand as the record will show it (R98). -/
def Instr.operand (i : Instr) : Operand := i.parts.2

/-- The bytes of an instruction, formats F1, F2, F3 (R95). -/
def encode (i : Instr) : List Byte := i.opcode :: i.operand.bytes

/-- The length in bytes (R97). -/
def Instr.length (i : Instr) : Nat := (encode i).length

end Sys2Proof
end

