-- ==== Sys2Proof/Machine/State.lean ====
section
/-! DEFINITION. The state of the block (10_state.md), as plain data, and its value right after reset (R45).
Two fields are not registers of the block: `input` holds the arguments of the current command (R11, R23),
which the step only reads, and `host` what the host does next. `job` and `out` are the model's own account of
which command is in progress (R290) and of the records it has emitted (R18 `emit`). -/

namespace Sys2Proof.Machine

/-! ## Reasons a step can stop. The block's own errors are values in `ST` (R14), never one of these. -/

/-- Reasons outside the block's four error kinds. Each is a state in which the rules give no step. -/
inductive Fault where
  /-- Raised by an instruction's meaning, by the walk's step and by the disassembly stage of `analyze`: a
  register the step reads is `none` (R45, U13, D34). Safe. -/
  | absentRegister
  /-- Raised by an instruction's meaning run where no step exists: `PHASE` is not `DIS_RUN`, or
  `DIS.off >= DIS.high` (R273). Safe. -/
  | noStep
  /-- Raised by the walk's step: the code buffer ends before the range does, so a byte of the
  instruction does not exist (R65, R274's precondition `high <= len(CODE)`). Safe. -/
  | outsideBuffer
  deriving DecidableEq, Repr

/-- Requests the spec does not admit ("a model rejects it before running", 93_implementation_defined.md),
and instructions with no meaning. -/
inductive Refusal where
  /-- Raised by `exec` for an instruction that has no meaning yet. Safe. -/
  | notModelled (mnemonic : String)
  /-- Raised when `disassemble` or `analyze` is issued with `TRUNC_POLICY = EMIT_PARTIAL` (R286, U2). Safe. -/
  | emitPartial
  /-- Raised when `disassemble` or `analyze` is issued with a `BRK_LEN` other than 1 (U16). Safe. -/
  | brkLength (n : Nat)
  /-- Raised when a command's buffer is longer than `MAX_BUF_LEN` (U17). Safe. -/
  | bufferTooLong (len max : Nat)
  deriving DecidableEq, Repr

/-! ## Memory -/

/-- A byte buffer (`BUF` or `CODE`, R60): its bytes by offset, offsets 0, 1, 2, … in order (`Memory.wf` in
Machine/Ops.lean). An offset that is not listed is outside the buffer. -/
structure Memory where
  cells : List Host.Cell
  deriving DecidableEq, Repr

/-! ## The register groups of 10_state.md -/

/-- `H.tv_standard` (R155). -/
inductive TvStandard where
  | NTSC
  | PAL
  deriving DecidableEq, Repr

/-- The header record `H` (R24), one field per register, without the presence bit. -/
structure Header where
  magic          : List Byte
  version        : Byte
  totalSongs     : Byte
  startingSong   : Byte
  loadAddr       : Word
  initAddr       : Word
  playAddr       : Word
  title          : List Byte
  artist         : List Byte
  copyright      : List Byte
  ntscSpeed      : Word
  bankswitchInit : List Byte
  palSpeed       : Word
  palMode        : Bool
  dualMode       : Bool
  ntscMode       : Bool
  tvStandard     : TvStandard
  vrc6           : Bool
  vrc7           : Bool
  fds            : Bool
  mmc5           : Bool
  namco106       : Bool
  fme07          : Bool
  valid          : Bool
  deriving DecidableEq, Repr

/-- `DIS`: the disassembler's control registers (R28 to R32). `off` is the block's program counter. -/
structure DisRegs where
  off   : Option Nat
  low   : Option Nat
  high  : Option Nat
  base  : Option Word
  count : Nat
  deriving DecidableEq, Repr

/-- The instruction record `IR` (R34), with the auxiliary `offset` and `opcode` of R36. -/
structure Record where
  mn      : Mnemonic
  mode    : Mode
  len     : Nat
  operand : Operand
  offset  : Nat
  opcode  : Byte
  deriving DecidableEq, Repr

/-- `TR`: the derived fields of the tune record (R37), and the raw code bytes it holds when
disassembly is deferred (R296). -/
structure TuneRegs where
  present      : Bool
  name         : Option String
  codeSize     : Option Nat
  lastCodeAddr : Option Nat
  codeEmpty    : Option Bool
  addrOverflow : Option Bool
  clipped      : Option Bool
  dropped      : Option Nat
  deferred     : Option Bool
  rawCode      : Option (List Byte)
  deriving DecidableEq, Repr

/-- `ST`: the result kind of the last completed command with its payload `ST.info` (R38, R300 to R304).
The numeric code of a kind is `Status.code`. -/
inductive Status where
  | ok
  | truncatedInput (len : Nat)
  | outOfBounds (first second len : Nat)
  | truncatedInstruction (off : Nat) (opcode : Byte) (len available : Nat)
  | invalidMagic (bytes : List Byte)
  deriving DecidableEq, Repr

/-- `PHASE` (R33). -/
inductive Phase where
  | idle
  | disRun
  deriving DecidableEq, Repr

/-! ## Commands, their arguments, and the host -/

/-- A command (R19, R270, R290): `disassemble` with its optional bounds, `analyze` with the file's base name. -/
inductive Command where
  | decodeHeader (bytes : List Byte)
  | disassemble (code : List Byte) (base : Word) (low high : Option Nat)
  | analyze (file : List Byte) (name : String)
  deriving DecidableEq, Repr

/-- A command with the configuration supplied with it (R41, R335). -/
structure Request where
  cfg : Config
  cmd : Command
  deriving DecidableEq, Repr

/-- The command in progress. `analyzeDue`: `analyze` has done its header stage and its disassembly
stage is next (R290, D2). -/
inductive Job where
  | noCommand
  | disassemble
  | analyzeDue
  | analyze
  deriving DecidableEq, Repr

/-- The arguments of the current command that its later steps read: the configuration, the buffer the cursor is
attached to and the code buffer (R11, R23, R61). -/
structure Input where
  cfg  : Config
  buf  : Memory
  code : Memory
  deriving DecidableEq, Repr

/-- What the host does next: the commands it will issue, in order, each as soon as the block takes one
(R336), and whether it resets the block before the next step (R331). -/
structure HostPort where
  requests : List Request
  reset    : Bool
  deriving DecidableEq, Repr

/-- The state. `cur` is `CUR.pos` (R22); `hdr` is `H`, absent when `H.present = 0` (R27); `ir` is `IR`. -/
structure State where
  cur   : Option Nat
  hdr   : Option Header
  dis   : DisRegs
  ir    : Option Record
  tr    : TuneRegs
  st    : Status
  phase : Phase
  input : Input
  job   : Job
  out   : List Record
  host  : HostPort
  deriving DecidableEq, Repr

/-- The tune-record registers right after reset (R45): absent. -/
def TuneRegs.reset : TuneRegs where
  present := false
  name := none
  codeSize := none
  lastCodeAddr := none
  codeEmpty := none
  addrOverflow := none
  clipped := none
  dropped := none
  deferred := none
  rawCode := none

/-- The block right after reset (R45, R330): `PHASE = IDLE`, `ST = OK`, every data register `none`,
`DIS.count = 0`. DESIGN CHOICE for the fields that are the model's own (notes/assumptions/4.md): no command in
progress, no record emitted, empty buffers, the default configuration, a host that asks for nothing. -/
def State.reset : State where
  cur   := none
  hdr   := none
  dis   := { off := none, low := none, high := none, base := none, count := 0 }
  ir    := none
  tr    := TuneRegs.reset
  st    := .ok
  phase := .idle
  input := { cfg := {}, buf := ⟨[]⟩, code := ⟨[]⟩ }
  job   := .noCommand
  out   := []
  host  := { requests := [], reset := false }

end Sys2Proof.Machine
end

