-- ==== Sys2Proof/Machine/Ops.lean ====
section
/-! DEFINITION. The named operations over buffers and registers: reading a buffer (20_memory.md), raising an
error (R309), emitting a record (R274), starting and ending a walk (R270 to R273), reset (R330, R331). -/

namespace Sys2Proof.Machine

/-- The outcome of a step of this machine. -/
abbrev Out := Host.Outcome State Fault Refusal

/-- Applies `f` to a next state; a fault or a refusal stays as it is. -/
def mapNext (f : State → State) : Out → Out
  | .next s => .next (f s)
  | .fault r => .fault r
  | .refused r => .refused r

/-! ## Buffers -/

/-- What an offset that a buffer does not list reads as: nothing, "a read outside a buffer never returns a
value" (R65). -/
def unlisted : Option Byte := none

/-- The cells of a byte string whose first byte stands at `a`. -/
def cellsFrom : Nat → List Byte → List Host.Cell
  | _, [] => []
  | a, b :: bs => (a, b) :: cellsFrom (a + 1) bs

/-- The byte listed at offset `x`. -/
def lookup : List Host.Cell → Nat → Option Byte
  | [], _ => unlisted
  | (a, b) :: cs, x => if a = x then some b else lookup cs x

/-- The buffer that holds a byte string from offset 0 (R60, R61). -/
def Memory.ofBytes (bs : List Byte) : Memory := ⟨cellsFrom 0 bs⟩

/-- `BUF[a]`, or nothing outside the buffer. -/
def Memory.read? (m : Memory) (a : Nat) : Option Byte := lookup m.cells a

/-- `len(BUF)`. -/
def Memory.size (m : Memory) : Nat := m.cells.length

/-- The buffer's bytes in offset order. -/
def Memory.bytes (m : Memory) : List Byte := m.cells.map Prod.snd

/-- `MemRead(a, n)` (R18): the bytes at `a`, …, `a + n - 1`, up to the first that is outside. -/
def Memory.slice (m : Memory) (a : Nat) : Nat → List Byte
  | 0 => []
  | n + 1 =>
    match m.read? a with
    | some b => b :: m.slice (a + 1) n
    | none => []

/-- The canonical form: the offsets are 0, 1, 2, … in rising order, so equal buffers are equal data. -/
def Memory.wf (m : Memory) : Bool := m.cells.map Prod.fst == List.range m.cells.length

/-- The buffer with `bs` in place of its bytes from `a` on, zero bytes filling a gap before `a`. The
block never writes a buffer (R66): this is the host's, for `State.withFetchWord`. -/
def Memory.place (m : Memory) (a : Nat) (bs : List Byte) : Memory :=
  Memory.ofBytes
    ((m.bytes ++ List.replicate (a - m.size) 0#8).take a ++ bs ++ m.bytes.drop (a + bs.length))

/-! ## Status and errors -/

/-- `ST.kind`'s numeric code (R300). -/
def Status.code : Status → Nat
  | .ok => 0
  | .truncatedInput _ => 1
  | .outOfBounds _ _ _ => 2
  | .truncatedInstruction _ _ _ _ => 3
  | .invalidMagic _ => 4

/-- `raise <Kind>(info)` (R309): the command ends, `ST` takes the kind and payload, `PHASE <- IDLE`. No vector, no
saved program counter, no mode change; and no return operation exists (R313). -/
def State.raise (e : Status) (s : State) : State :=
  { s with st := e, phase := .idle, job := .noCommand }

/-- A DIS step raises `TruncatedInstruction(off, opcode, len, available)` (R277). `TR.present = 0`, whichever command the step
is of; the other `TR` registers, `DIS`, `IR` and the emitted records keep their values (R311). -/
def State.raiseTruncated (off : Nat) (opcode : Byte) (len available : Nat) (s : State) : State :=
  ({ s with tr := { s.tr with present := false } }).raise (.truncatedInstruction off opcode len available)

/-! ## The walk -/

/-- `IR <- r; emit(IR); DIS.count <- DIS.count + 1` (R274). -/
def State.emit (r : Record) (s : State) : State :=
  { s with ir := some r, out := s.out ++ [r], dis := { s.dis with count := s.dis.count + 1 } }

/-- The emission followed by `DIS.off <- off + len`, the only way `DIS.off` moves (R28, R274). -/
def State.commit (r : Record) (s : State) : State :=
  let t := s.emit r
  { t with dis := { t.dis with off := some (r.offset + r.len) } }

/-- Whether the end of the command's walk completes a tune record (R290, R291). -/
def Job.completesTune : Job → Bool
  | .analyze => true
  | .noCommand | .disassemble | .analyzeDue => false

/-- The end of a walk without error: `PHASE <- IDLE; ST <- OK` (R273), and for `analyze` also
`TR.present <- 1` (R290, R291). -/
def State.endWalk (s : State) : State :=
  { s with
    st := .ok
    phase := .idle
    job := .noCommand
    tr := { s.tr with present := s.tr.present || s.job.completesTune } }

/-- The loop's test (R273): a running walk ends when `DIS.off >= DIS.high`. -/
def State.finishIfDone (s : State) : State :=
  match s.phase, s.dis.off, s.dis.high with
  | .disRun, some off, some high => if high ≤ off then s.endWalk else s
  | _, _, _ => s

/-- The acceptance of a walk over `[low, high)` (R270, R272); an empty range ends at once (R271). -/
def State.startWalk (base : Word) (low high : Nat) (job : Job) (s : State) : State :=
  State.finishIfDone
    { s with
      dis := { off := some low, low := some low, high := some high, base := some base, count := 0 }
      phase := .disRun
      job := job }

/-- The address reported for a record: `base + offset`, not reduced modulo 65536 (R31, R282). -/
def reportedAddr (base : Word) (offset : Nat) : Nat := base.toNat + offset

/-- The 16-bit view of a reported address (R31). -/
def addr16 (addr : Nat) : Word := BitVec.ofNat 16 addr

/-- The wrap mark of a reported address (R31). -/
def addrWraps (addr : Nat) : Bool := decide (65536 ≤ addr)

/-! ## Readers of record groups, and reset -/

/-- `H.present` (R27). -/
def State.hPresent (s : State) : Bool := s.hdr.isSome

/-- The tune record as the host may read it: absent when `TR.present = 0` (R291, U13). -/
def State.tuneRecord (s : State) : Option TuneRegs := if s.tr.present then some s.tr else none

/-- The reset event (R330, R331): every register of the block to its reset value, the command in progress
abandoned without a result; records already emitted stand, and so do the commands the host has yet to issue. -/
def State.applyReset (s : State) : State :=
  { State.reset with out := s.out, host := { s.host with reset := false } }

end Sys2Proof.Machine
end

