-- ==== Sys2Proof/Machine/Cursor.lean ====
section
/-! DEFINITION. The Byte Cursor (40_byte_cursor.md): a buffer and a read position. Every operation that needs `n` bytes
raises `OutOfBounds(pos, n, len)` when they pass the end, before reading a byte and before moving (R136). -/

namespace Sys2Proof.Machine

/-- The cursor: "wraps a byte sequence and a mutable read position" (R22, R23). -/
structure Cursor where
  buf : Memory
  pos : Nat
  deriving DecidableEq, Repr

/-- A cursor operation: a value and the moved cursor, or an error and the cursor as it was left. -/
abbrev CursorM (α : Type) := EStateM Status Cursor α

/-- Attach (R130): the cursor reads the buffer from its first byte. -/
def Cursor.attach (buf : Memory) : Cursor := { buf, pos := 0 }

/-- Read raw N (R131). -/
def readRaw (n : Nat) : CursorM (List Byte) := fun c =>
  if c.buf.size < c.pos + n then .error (.outOfBounds c.pos n c.buf.size) c
  else .ok (c.buf.slice c.pos n) { c with pos := c.pos + n }

/-- Read u8 (R132). -/
def readU8 : CursorM Byte := do
  let raw ← readRaw 1
  return raw.getD 0 0#8

/-- Read u16le (R133): the byte at `pos` is the low byte. -/
def readU16 : CursorM Word := do
  let raw ← readRaw 2
  return wordLE (raw.getD 0 0#8) (raw.getD 1 0#8)

/-- A byte string without its trailing 0x00 bytes; interior nulls stay (R134). -/
def trimNulls (bs : List Byte) : List Byte := (bs.reverse.dropWhile (· == 0#8)).reverse

/-- Read text N (R134): `pos` advances by the full `N`. -/
def readText (n : Nat) : CursorM (List Byte) := do
  let raw ← readRaw n
  return trimNulls raw

/-- Skip N (R135): the bound is checked like a read's; no byte is read. -/
def skip (n : Nat) : CursorM Unit := fun c =>
  if c.buf.size < c.pos + n then .error (.outOfBounds c.pos n c.buf.size) c
  else .ok () { c with pos := c.pos + n }

end Sys2Proof.Machine
end

