-- ==== Sys2Proof/Machine/Flags.lean ====
section
/-! DEFINITION. The block's condition bits (R39): the marks of the header record and of the tune record. The
block has no 6502 flags, and no decoded instruction writes one of these. -/

namespace Sys2Proof.Machine

/-- `H.valid`: the five bytes read equal `MAGIC` byte for byte (R159). -/
def magicValid (cfg : Config) (magic : List Byte) : Bool := decide (magic = cfg.magic.toList)

/-- Bit `n` of a byte, bit 0 the least significant (R18, D5). -/
def bitOf (b : Byte) (n : Nat) : Bool := b.getLsbD n

/-- `H.tv_standard`: PAL when the PAL-mode bit is set and the dual-mode bit is clear, else NTSC (R155). -/
def tvStandardOf (palMode dualMode : Bool) : TvStandard :=
  if palMode && !dualMode then .PAL else .NTSC

/-- `H.ntsc_mode`: 1 exactly when `tv_standard = NTSC` (R156). -/
def ntscModeOf (tv : TvStandard) : Bool := decide (tv = .NTSC)

/-- `TR.last_code_addr`: `load_addr + code_size - 1`, not reduced; `none` when no address is occupied (R293). -/
def lastCodeAddrOf (load : Word) (size : Nat) : Option Nat :=
  if size = 0 then none else some (load.toNat + size - 1)

/-- `TR.addr_overflow`: `load_addr + code_size > 0x10000` (R294). -/
def addrOverflowOf (load : Word) (size : Nat) : Bool := decide (0x10000 < load.toNat + size)

/-- The most bytes that fit from `load` to the top of the 16-bit space (R295). -/
def clipLimit (load : Word) : Nat := 0x10000 - load.toNat

/-- `TR.clipped`: clipping is asked for and removes bytes (R295). -/
def clippedOf (cfg : Config) (load : Word) (size : Nat) : Bool :=
  cfg.clipTo64k && decide (clipLimit load < size)

/-- The code handed to DIS: all of it, or its first `0x10000 - load_addr` bytes (R295). -/
def clipCode (cfg : Config) (load : Word) (code : List Byte) : List Byte :=
  if clippedOf cfg load code.length then code.take (clipLimit load) else code

/-- `TR.dropped`: the number of bytes clipping removed (R295). -/
def droppedOf (cfg : Config) (load : Word) (size : Nat) : Nat :=
  if clippedOf cfg load size then size - clipLimit load else 0

end Sys2Proof.Machine
end

