-- ==== Sys2Proof/Machine/Header.lean ====
section
/-! DEFINITION. Unit HDR (41_header_decoder.md): the fixed schema of R90 read through the Byte Cursor, and the
header layout read backwards (S7, R164 (c)), which the block does not hold. -/

namespace Sys2Proof.Machine

/-- `HDR_LEN` (R8). -/
def hdrLen : Nat := 128

/-- The fields in schema order (R90, R140 to R159). -/
def decodeFields (cfg : Config) : CursorM Header := do
  let magic ← readRaw 5
  let version ← readU8
  let totalSongs ← readU8
  let startingSong ← readU8
  let loadAddr ← readU16
  let initAddr ← readU16
  let playAddr ← readU16
  let title ← readText 32
  let artist ← readText 32
  let copyright ← readText 32
  let ntscSpeed ← readU16
  let bankswitchInit ← readRaw 8
  let palSpeed ← readU16
  let f ← readU8
  let e ← readU8
  skip 4
  let palMode := bitOf f 0
  let dualMode := bitOf f 1
  let tvStandard := tvStandardOf palMode dualMode
  return {
    magic, version, totalSongs, startingSong, loadAddr, initAddr, playAddr, title, artist, copyright,
    ntscSpeed, bankswitchInit, palSpeed, palMode, dualMode
    ntscMode := ntscModeOf tvStandard
    tvStandard
    vrc6 := bitOf e 0
    vrc7 := bitOf e 1
    fds := bitOf e 2
    mmc5 := bitOf e 3
    namco106 := bitOf e 4
    fme07 := bitOf e 5
    valid := magicValid cfg magic }

/-- The header stage on bytes `b`: `TruncatedInput` before the cursor is attached (R160), the fields, the strict magic
check (R162). Errors leave `H` absent (R310); the result is the state after the error, or the state in which `H` holds the
record and `ST = OK`. -/
def headerStage (cfg : Config) (b : List Byte) (s : State) : Except State State :=
  if b.length < hdrLen then .error (({ s with hdr := none }).raise (.truncatedInput b.length))
  else
    let buf := Memory.ofBytes b
    let at0 : State := { s with input := { s.input with buf } }
    match decodeFields cfg (Cursor.attach buf) with
    | .error e c => .error (({ at0 with cur := some c.pos, hdr := none }).raise e)
    | .ok h c =>
      if cfg.strictMagic && !h.valid then
        .error (({ at0 with cur := some c.pos, hdr := none }).raise (.invalidMagic h.magic))
      else .ok { at0 with cur := some c.pos, hdr := some h, st := .ok }

/-! ## The layout read backwards -/

/-- A text value padded with 0x00 to its field's 32 bytes. -/
def padText (bs : List Byte) : List Byte := bs ++ List.replicate (32 - bs.length) 0#8

/-- A 16-bit field's bytes, low byte first (R67). -/
def wordBytes (w : Word) : List Byte := [lowByte w, highByte w]

/-- The byte whose bits 0, 1, … are the given bits, the others 0. -/
def byteOfBits (bits : List Bool) : Byte :=
  bits.foldr (fun bit acc => BitVec.ofNat 8 (2 * acc.toNat + bit.toNat)) 0#8

/-- The 128 bytes that spell a header record, each field at its offset of R90, reserved bits and bytes 0. -/
def encodeHeader (h : Header) : List Byte :=
  h.magic ++ [h.version, h.totalSongs, h.startingSong]
    ++ wordBytes h.loadAddr ++ wordBytes h.initAddr ++ wordBytes h.playAddr
    ++ padText h.title ++ padText h.artist ++ padText h.copyright
    ++ wordBytes h.ntscSpeed ++ h.bankswitchInit ++ wordBytes h.palSpeed
    ++ [byteOfBits [h.palMode, h.dualMode],
        byteOfBits [h.vrc6, h.vrc7, h.fds, h.mmc5, h.namco106, h.fme07]]
    ++ List.replicate 4 0#8

end Sys2Proof.Machine
end

