-- ==== Sys2Proof/Machine/Commands.lean ====
section
/-! DEFINITION. The three commands (R315): `decode_header` (R140), the acceptance of `disassemble` (R270, R271) and the
stages of `analyze` (R290). A request outside what the spec admits is refused before it runs. -/

namespace Sys2Proof.Machine

/-- The refusal of a configuration whose values are named and not admitted (R286, U2, U16). -/
def cfgRefusal (cfg : Config) : Option Refusal :=
  if cfg.truncPolicy ≠ .raise then some .emitPartial
  else if cfg.brkLen ≠ 1 then some (.brkLength cfg.brkLen)
  else none

/-- The refusal of a buffer longer than `MAX_BUF_LEN`, never a silent truncation (U17). -/
def lengthRefusal (cfg : Config) (len : Nat) : Option Refusal :=
  match cfg.maxBufLen with
  | some max => if max < len then some (.bufferTooLong len max) else none
  | none => none

/-- Taking a command: its configuration becomes the current one and its stream of records is empty. -/
def State.accept (cfg : Config) (s : State) : State :=
  { s with input := { s.input with cfg }, out := [] }

/-- `decode_header(B)`: one atomic step (R140). -/
def decodeHeader (cfg : Config) (b : List Byte) (s : State) : State :=
  match headerStage cfg b s with
  | .error t => t
  | .ok t => t

/-- `disassemble(CODE, base, low, high)` up to its first step (R270): the range check (R271), then the walk's start. -/
def disassemble (code : List Byte) (base : Word) (low high : Option Nat) (s : State) : State :=
  let lo := low.getD 0
  let hi := high.getD code.length
  if code.length < hi then s.raise (.outOfBounds lo hi code.length)
  else ({ s with input := { s.input with code := Memory.ofBytes code } }).startWalk base lo hi .disassemble

/-- The tune-record registers `analyze` computes (R292 to R297), before the record is complete. -/
def tuneFields (cfg : Config) (name : String) (load : Word) (code : List Byte) : TuneRegs where
  present := false
  name := some name
  codeSize := some code.length
  lastCodeAddr := lastCodeAddrOf load code.length
  codeEmpty := some (decide (code.length = 0))
  addrOverflow := some (addrOverflowOf load code.length)
  clipped := some (clippedOf cfg load code.length)
  dropped := some (droppedOf cfg load code.length)
  deferred := some cfg.deferDisasm
  rawCode := if cfg.deferDisasm then some (clipCode cfg load code) else none

/-- The first step of `analyze` (R290): the header stage, the `TR` fields, and with `DEFER_DISASM = 1` the
completed record (R296); otherwise the disassembly stage is due. -/
def analyze (cfg : Config) (file : List Byte) (name : String) (s : State) : State :=
  match headerStage cfg file { s with tr := { s.tr with present := false } } with
  | .error t => t
  | .ok t =>
    match t.hdr with
    | none => t
    | some h =>
      let code := file.drop hdrLen
      let tr := tuneFields cfg name h.loadAddr code
      if cfg.deferDisasm then { t with tr := { tr with present := true }, st := .ok }
      else
        { t with
          tr
          input := { t.input with code := Memory.ofBytes (clipCode cfg h.loadAddr code) }
          job := .analyzeDue }

/-- The disassembly stage of `analyze` is accepted: `disassemble(dcode, base = H.load_addr, low = 0, high = len(dcode))`
(R290); its range check cannot fail (R298). -/
def acceptStage (s : State) : Out :=
  match s.hdr with
  | some h => .next (s.startWalk h.loadAddr 0 s.input.code.size .analyze)
  | none => .fault .absentRegister

/-- A command is issued to an idle block. -/
def issue (r : Request) (s : State) : Out :=
  let t := s.accept r.cfg
  match r.cmd with
  | .decodeHeader b =>
    match lengthRefusal r.cfg b.length with
    | some why => .refused why
    | none => .next (decodeHeader r.cfg b t)
  | .disassemble code base low high =>
    match (cfgRefusal r.cfg).or (lengthRefusal r.cfg code.length) with
    | some why => .refused why
    | none => .next (disassemble code base low high t)
  | .analyze file name =>
    match (cfgRefusal r.cfg).or (lengthRefusal r.cfg file.length) with
    | some why => .refused why
    | none => .next (analyze r.cfg file name t)

/-- A step of an idle block: the due stage of `analyze`, else the host's next command; with neither, "an idle block
simply waits for a command" (R321, R332). -/
def idleStep (s : State) : Out :=
  match s.job, s.host.requests with
  | .analyzeDue, _ => acceptStage s
  | _, [] => .next s
  | _, r :: rs => issue r { s with host := { s.host with requests := rs } }

end Sys2Proof.Machine
end

