-- ==== Sys2Proof/Machine/Operands.lean ====
section
/-! DEFINITION. One DIS step for a decoded instruction (R274), and the three operand forms F1, F2, F3 (R95,
R275). The dispatch is on the length alone, "never on `mode` or `mn`" (R274, R276). -/

namespace Sys2Proof.Machine

/-- The step of R274 once the opcode byte `opc` is known to be (mn, mode, len): the check `off + len > high` and its
`TruncatedInstruction` (R277, R311), otherwise the record and the advance. -/
def instrStep (opc : Byte) (mn : Mnemonic) (mode : Mode) (len : Nat) (operand : Operand) (s : State) : Out :=
  match s.dis.off, s.dis.high with
  | some off, some high =>
    if s.phase ≠ .disRun ∨ high ≤ off then .fault .noStep
    else if high < off + len then .next (s.raiseTruncated off opc len (high - off))
    else .next (s.commit { mn, mode, len, operand, offset := off, opcode := opc })
  | _, _ => .fault .absentRegister

/-- Format F1: one byte, no operand (R95). -/
def formatF1 (opc : Byte) (mn : Mnemonic) (mode : Mode) (s : State) : Out :=
  instrStep opc mn mode 1 .absent s

/-- Format F2: the byte after the opcode is the 8-bit operand (R95). -/
def formatF2 (opc : Byte) (mn : Mnemonic) (mode : Mode) (v : Byte) (s : State) : Out :=
  instrStep opc mn mode 2 (.u8 v) s

/-- Format F3: the two bytes after the opcode are the 16-bit operand, low byte first (R95). -/
def formatF3 (opc : Byte) (mn : Mnemonic) (mode : Mode) (w : Word) (s : State) : Out :=
  instrStep opc mn mode 3 (.u16 w) s

end Sys2Proof.Machine
end

