-- ==== Sys2Proof/Machine/ArithLogic.lean ====
section
/-! DEFINITION. The arithmetic, logic and compare mnemonics (43_isa_arith_logic.md). A meaning is the DIS step that names the
instruction (R274): its record is emitted and `DIS.off` advances. Nothing is executed (R7). -/

namespace Sys2Proof.Machine

/-! ADC, add with carry (R200). -/

/-- ADC IMM, opcode 0x69 (R200). -/
def execAdcImm (v : Byte) (s : State) : Out := formatF2 0x69#8 .ADC .IMM v s
/-- ADC ZP, opcode 0x65 (R200). -/
def execAdcZp (v : Byte) (s : State) : Out := formatF2 0x65#8 .ADC .ZP v s
/-- ADC ZPX, opcode 0x75 (R200). -/
def execAdcZpx (v : Byte) (s : State) : Out := formatF2 0x75#8 .ADC .ZPX v s
/-- ADC ABS, opcode 0x6D (R200). -/
def execAdcAbs (w : Word) (s : State) : Out := formatF3 0x6D#8 .ADC .ABS w s
/-- ADC ABX, opcode 0x7D (R200). -/
def execAdcAbx (w : Word) (s : State) : Out := formatF3 0x7D#8 .ADC .ABX w s
/-- ADC ABY, opcode 0x79 (R200). -/
def execAdcAby (w : Word) (s : State) : Out := formatF3 0x79#8 .ADC .ABY w s
/-- ADC IZX, opcode 0x61 (R200). -/
def execAdcIzx (v : Byte) (s : State) : Out := formatF2 0x61#8 .ADC .IZX v s
/-- ADC IZY, opcode 0x71 (R200). -/
def execAdcIzy (v : Byte) (s : State) : Out := formatF2 0x71#8 .ADC .IZY v s

/-! SBC, subtract with carry (R201). -/

/-- SBC IMM, opcode 0xE9 (R201). -/
def execSbcImm (v : Byte) (s : State) : Out := formatF2 0xE9#8 .SBC .IMM v s
/-- SBC ZP, opcode 0xE5 (R201). -/
def execSbcZp (v : Byte) (s : State) : Out := formatF2 0xE5#8 .SBC .ZP v s
/-- SBC ZPX, opcode 0xF5 (R201). -/
def execSbcZpx (v : Byte) (s : State) : Out := formatF2 0xF5#8 .SBC .ZPX v s
/-- SBC ABS, opcode 0xED (R201). -/
def execSbcAbs (w : Word) (s : State) : Out := formatF3 0xED#8 .SBC .ABS w s
/-- SBC ABX, opcode 0xFD (R201). -/
def execSbcAbx (w : Word) (s : State) : Out := formatF3 0xFD#8 .SBC .ABX w s
/-- SBC ABY, opcode 0xF9 (R201). -/
def execSbcAby (w : Word) (s : State) : Out := formatF3 0xF9#8 .SBC .ABY w s
/-- SBC IZX, opcode 0xE1 (R201). -/
def execSbcIzx (v : Byte) (s : State) : Out := formatF2 0xE1#8 .SBC .IZX v s
/-- SBC IZY, opcode 0xF1 (R201). -/
def execSbcIzy (v : Byte) (s : State) : Out := formatF2 0xF1#8 .SBC .IZY v s

/-! AND, logical AND (R202). -/

/-- AND IMM, opcode 0x29 (R202). -/
def execAndImm (v : Byte) (s : State) : Out := formatF2 0x29#8 .AND .IMM v s
/-- AND ZP, opcode 0x25 (R202). -/
def execAndZp (v : Byte) (s : State) : Out := formatF2 0x25#8 .AND .ZP v s
/-- AND ZPX, opcode 0x35 (R202). -/
def execAndZpx (v : Byte) (s : State) : Out := formatF2 0x35#8 .AND .ZPX v s
/-- AND ABS, opcode 0x2D (R202). -/
def execAndAbs (w : Word) (s : State) : Out := formatF3 0x2D#8 .AND .ABS w s
/-- AND ABX, opcode 0x3D (R202). -/
def execAndAbx (w : Word) (s : State) : Out := formatF3 0x3D#8 .AND .ABX w s
/-- AND ABY, opcode 0x39 (R202). -/
def execAndAby (w : Word) (s : State) : Out := formatF3 0x39#8 .AND .ABY w s
/-- AND IZX, opcode 0x21 (R202). -/
def execAndIzx (v : Byte) (s : State) : Out := formatF2 0x21#8 .AND .IZX v s
/-- AND IZY, opcode 0x31 (R202). -/
def execAndIzy (v : Byte) (s : State) : Out := formatF2 0x31#8 .AND .IZY v s

/-! ORA, logical inclusive OR (R203). -/

/-- ORA IMM, opcode 0x09 (R203). -/
def execOraImm (v : Byte) (s : State) : Out := formatF2 0x09#8 .ORA .IMM v s
/-- ORA ZP, opcode 0x05 (R203). -/
def execOraZp (v : Byte) (s : State) : Out := formatF2 0x05#8 .ORA .ZP v s
/-- ORA ZPX, opcode 0x15 (R203). -/
def execOraZpx (v : Byte) (s : State) : Out := formatF2 0x15#8 .ORA .ZPX v s
/-- ORA ABS, opcode 0x0D (R203). -/
def execOraAbs (w : Word) (s : State) : Out := formatF3 0x0D#8 .ORA .ABS w s
/-- ORA ABX, opcode 0x1D (R203). -/
def execOraAbx (w : Word) (s : State) : Out := formatF3 0x1D#8 .ORA .ABX w s
/-- ORA ABY, opcode 0x19 (R203). -/
def execOraAby (w : Word) (s : State) : Out := formatF3 0x19#8 .ORA .ABY w s
/-- ORA IZX, opcode 0x01 (R203). -/
def execOraIzx (v : Byte) (s : State) : Out := formatF2 0x01#8 .ORA .IZX v s
/-- ORA IZY, opcode 0x11 (R203). -/
def execOraIzy (v : Byte) (s : State) : Out := formatF2 0x11#8 .ORA .IZY v s

/-! EOR, exclusive OR (R204). -/

/-- EOR IMM, opcode 0x49 (R204). -/
def execEorImm (v : Byte) (s : State) : Out := formatF2 0x49#8 .EOR .IMM v s
/-- EOR ZP, opcode 0x45 (R204). -/
def execEorZp (v : Byte) (s : State) : Out := formatF2 0x45#8 .EOR .ZP v s
/-- EOR ZPX, opcode 0x55 (R204). -/
def execEorZpx (v : Byte) (s : State) : Out := formatF2 0x55#8 .EOR .ZPX v s
/-- EOR ABS, opcode 0x4D (R204). -/
def execEorAbs (w : Word) (s : State) : Out := formatF3 0x4D#8 .EOR .ABS w s
/-- EOR ABX, opcode 0x5D (R204). -/
def execEorAbx (w : Word) (s : State) : Out := formatF3 0x5D#8 .EOR .ABX w s
/-- EOR ABY, opcode 0x59 (R204). -/
def execEorAby (w : Word) (s : State) : Out := formatF3 0x59#8 .EOR .ABY w s
/-- EOR IZX, opcode 0x41 (R204). -/
def execEorIzx (v : Byte) (s : State) : Out := formatF2 0x41#8 .EOR .IZX v s
/-- EOR IZY, opcode 0x51 (R204). -/
def execEorIzy (v : Byte) (s : State) : Out := formatF2 0x51#8 .EOR .IZY v s

/-! BIT, bit test (R205). -/

/-- BIT ZP, opcode 0x24 (R205). -/
def execBitZp (v : Byte) (s : State) : Out := formatF2 0x24#8 .BIT .ZP v s
/-- BIT ABS, opcode 0x2C (R205). -/
def execBitAbs (w : Word) (s : State) : Out := formatF3 0x2C#8 .BIT .ABS w s

/-! CMP, compare accumulator (R206). -/

/-- CMP IMM, opcode 0xC9 (R206). -/
def execCmpImm (v : Byte) (s : State) : Out := formatF2 0xC9#8 .CMP .IMM v s
/-- CMP ZP, opcode 0xC5 (R206). -/
def execCmpZp (v : Byte) (s : State) : Out := formatF2 0xC5#8 .CMP .ZP v s
/-- CMP ZPX, opcode 0xD5 (R206). -/
def execCmpZpx (v : Byte) (s : State) : Out := formatF2 0xD5#8 .CMP .ZPX v s
/-- CMP ABS, opcode 0xCD (R206). -/
def execCmpAbs (w : Word) (s : State) : Out := formatF3 0xCD#8 .CMP .ABS w s
/-- CMP ABX, opcode 0xDD (R206). -/
def execCmpAbx (w : Word) (s : State) : Out := formatF3 0xDD#8 .CMP .ABX w s
/-- CMP ABY, opcode 0xD9 (R206). -/
def execCmpAby (w : Word) (s : State) : Out := formatF3 0xD9#8 .CMP .ABY w s
/-- CMP IZX, opcode 0xC1 (R206). -/
def execCmpIzx (v : Byte) (s : State) : Out := formatF2 0xC1#8 .CMP .IZX v s
/-- CMP IZY, opcode 0xD1 (R206). -/
def execCmpIzy (v : Byte) (s : State) : Out := formatF2 0xD1#8 .CMP .IZY v s

/-! CPX, compare X register (R207). -/

/-- CPX IMM, opcode 0xE0 (R207). -/
def execCpxImm (v : Byte) (s : State) : Out := formatF2 0xE0#8 .CPX .IMM v s
/-- CPX ZP, opcode 0xE4 (R207). -/
def execCpxZp (v : Byte) (s : State) : Out := formatF2 0xE4#8 .CPX .ZP v s
/-- CPX ABS, opcode 0xEC (R207). -/
def execCpxAbs (w : Word) (s : State) : Out := formatF3 0xEC#8 .CPX .ABS w s

/-! CPY, compare Y register (R208). -/

/-- CPY IMM, opcode 0xC0 (R208). -/
def execCpyImm (v : Byte) (s : State) : Out := formatF2 0xC0#8 .CPY .IMM v s
/-- CPY ZP, opcode 0xC4 (R208). -/
def execCpyZp (v : Byte) (s : State) : Out := formatF2 0xC4#8 .CPY .ZP v s
/-- CPY ABS, opcode 0xCC (R208). -/
def execCpyAbs (w : Word) (s : State) : Out := formatF3 0xCC#8 .CPY .ABS w s

end Sys2Proof.Machine
end

