-- ==== Sys2Proof/Machine/ControlFlags.lean ====
section
/-! DEFINITION. The jump, subroutine, branch, break, no-op and flag mnemonics (46_isa_control_flags.md). A meaning is the DIS step that names the
instruction (R274): its record is emitted and `DIS.off` advances. Nothing is executed (R7). -/

namespace Sys2Proof.Machine

/-! JMP, jump (R240). -/

/-- JMP ABS, opcode 0x4C (R240). -/
def execJmpAbs (w : Word) (s : State) : Out := formatF3 0x4C#8 .JMP .ABS w s
/-- JMP IND, opcode 0x6C (R240). -/
def execJmpInd (w : Word) (s : State) : Out := formatF3 0x6C#8 .JMP .IND w s

/-! JSR, jump to subroutine (R241). -/

/-- JSR ABS, opcode 0x20 (R241). -/
def execJsrAbs (w : Word) (s : State) : Out := formatF3 0x20#8 .JSR .ABS w s

/-! RTS, return from subroutine (R242). -/

/-- RTS IMP, opcode 0x60 (R242). -/
def execRts (s : State) : Out := formatF1 0x60#8 .RTS .IMP s

/-! RTI, return from interrupt (R243). -/

/-- RTI IMP, opcode 0x40 (R243). -/
def execRti (s : State) : Out := formatF1 0x40#8 .RTI .IMP s

/-! BRK, force break (R244). -/

/-- BRK IMP, opcode 0x00 (R244). -/
def execBrk (s : State) : Out := formatF1 0x00#8 .BRK .IMP s

/-! NOP, no operation (R245). -/

/-- NOP IMP, opcode 0xEA (R245). -/
def execNop (s : State) : Out := formatF1 0xEA#8 .NOP .IMP s

/-! BCC, branch if carry clear (R246). -/

/-- BCC REL, opcode 0x90 (R246). -/
def execBccRel (v : Byte) (s : State) : Out := formatF2 0x90#8 .BCC .REL v s

/-! BCS, branch if carry set (R247). -/

/-- BCS REL, opcode 0xB0 (R247). -/
def execBcsRel (v : Byte) (s : State) : Out := formatF2 0xB0#8 .BCS .REL v s

/-! BEQ, branch if equal (R248). -/

/-- BEQ REL, opcode 0xF0 (R248). -/
def execBeqRel (v : Byte) (s : State) : Out := formatF2 0xF0#8 .BEQ .REL v s

/-! BMI, branch if minus (R249). -/

/-- BMI REL, opcode 0x30 (R249). -/
def execBmiRel (v : Byte) (s : State) : Out := formatF2 0x30#8 .BMI .REL v s

/-! BNE, branch if not equal (R250). -/

/-- BNE REL, opcode 0xD0 (R250). -/
def execBneRel (v : Byte) (s : State) : Out := formatF2 0xD0#8 .BNE .REL v s

/-! BPL, branch if plus (R251). -/

/-- BPL REL, opcode 0x10 (R251). -/
def execBplRel (v : Byte) (s : State) : Out := formatF2 0x10#8 .BPL .REL v s

/-! BVC, branch if overflow clear (R252). -/

/-- BVC REL, opcode 0x50 (R252). -/
def execBvcRel (v : Byte) (s : State) : Out := formatF2 0x50#8 .BVC .REL v s

/-! BVS, branch if overflow set (R253). -/

/-- BVS REL, opcode 0x70 (R253). -/
def execBvsRel (v : Byte) (s : State) : Out := formatF2 0x70#8 .BVS .REL v s

/-! CLC, clear carry (R254). -/

/-- CLC IMP, opcode 0x18 (R254). -/
def execClc (s : State) : Out := formatF1 0x18#8 .CLC .IMP s

/-! CLD, clear decimal mode (R255). -/

/-- CLD IMP, opcode 0xD8 (R255). -/
def execCld (s : State) : Out := formatF1 0xD8#8 .CLD .IMP s

/-! CLI, clear interrupt disable (R256). -/

/-- CLI IMP, opcode 0x58 (R256). -/
def execCli (s : State) : Out := formatF1 0x58#8 .CLI .IMP s

/-! CLV, clear overflow (R257). -/

/-- CLV IMP, opcode 0xB8 (R257). -/
def execClv (s : State) : Out := formatF1 0xB8#8 .CLV .IMP s

/-! SEC, set carry (R258). -/

/-- SEC IMP, opcode 0x38 (R258). -/
def execSec (s : State) : Out := formatF1 0x38#8 .SEC .IMP s

/-! SED, set decimal mode (R259). -/

/-- SED IMP, opcode 0xF8 (R259). -/
def execSed (s : State) : Out := formatF1 0xF8#8 .SED .IMP s

/-! SEI, set interrupt disable (R260). -/

/-- SEI IMP, opcode 0x78 (R260). -/
def execSei (s : State) : Out := formatF1 0x78#8 .SEI .IMP s

end Sys2Proof.Machine
end

