-- ==== Sys2Proof/Machine/LoadStoreTransfer.lean ====
section
/-! DEFINITION. The load, store, register-transfer and stack mnemonics (45_isa_load_store_transfer.md). A meaning is the DIS step that names the
instruction (R274): its record is emitted and `DIS.off` advances. Nothing is executed (R7). -/

namespace Sys2Proof.Machine

/-! LDA, load accumulator (R220). -/

/-- LDA IMM, opcode 0xA9 (R220). -/
def execLdaImm (v : Byte) (s : State) : Out := formatF2 0xA9#8 .LDA .IMM v s
/-- LDA ZP, opcode 0xA5 (R220). -/
def execLdaZp (v : Byte) (s : State) : Out := formatF2 0xA5#8 .LDA .ZP v s
/-- LDA ZPX, opcode 0xB5 (R220). -/
def execLdaZpx (v : Byte) (s : State) : Out := formatF2 0xB5#8 .LDA .ZPX v s
/-- LDA ABS, opcode 0xAD (R220). -/
def execLdaAbs (w : Word) (s : State) : Out := formatF3 0xAD#8 .LDA .ABS w s
/-- LDA ABX, opcode 0xBD (R220). -/
def execLdaAbx (w : Word) (s : State) : Out := formatF3 0xBD#8 .LDA .ABX w s
/-- LDA ABY, opcode 0xB9 (R220). -/
def execLdaAby (w : Word) (s : State) : Out := formatF3 0xB9#8 .LDA .ABY w s
/-- LDA IZX, opcode 0xA1 (R220). -/
def execLdaIzx (v : Byte) (s : State) : Out := formatF2 0xA1#8 .LDA .IZX v s
/-- LDA IZY, opcode 0xB1 (R220). -/
def execLdaIzy (v : Byte) (s : State) : Out := formatF2 0xB1#8 .LDA .IZY v s

/-! LDX, load X register (R221). -/

/-- LDX IMM, opcode 0xA2 (R221). -/
def execLdxImm (v : Byte) (s : State) : Out := formatF2 0xA2#8 .LDX .IMM v s
/-- LDX ZP, opcode 0xA6 (R221). -/
def execLdxZp (v : Byte) (s : State) : Out := formatF2 0xA6#8 .LDX .ZP v s
/-- LDX ZPY, opcode 0xB6 (R221). -/
def execLdxZpy (v : Byte) (s : State) : Out := formatF2 0xB6#8 .LDX .ZPY v s
/-- LDX ABS, opcode 0xAE (R221). -/
def execLdxAbs (w : Word) (s : State) : Out := formatF3 0xAE#8 .LDX .ABS w s
/-- LDX ABY, opcode 0xBE (R221). -/
def execLdxAby (w : Word) (s : State) : Out := formatF3 0xBE#8 .LDX .ABY w s

/-! LDY, load Y register (R222). -/

/-- LDY IMM, opcode 0xA0 (R222). -/
def execLdyImm (v : Byte) (s : State) : Out := formatF2 0xA0#8 .LDY .IMM v s
/-- LDY ZP, opcode 0xA4 (R222). -/
def execLdyZp (v : Byte) (s : State) : Out := formatF2 0xA4#8 .LDY .ZP v s
/-- LDY ZPX, opcode 0xB4 (R222). -/
def execLdyZpx (v : Byte) (s : State) : Out := formatF2 0xB4#8 .LDY .ZPX v s
/-- LDY ABS, opcode 0xAC (R222). -/
def execLdyAbs (w : Word) (s : State) : Out := formatF3 0xAC#8 .LDY .ABS w s
/-- LDY ABX, opcode 0xBC (R222). -/
def execLdyAbx (w : Word) (s : State) : Out := formatF3 0xBC#8 .LDY .ABX w s

/-! STA, store accumulator (R223). -/

/-- STA ZP, opcode 0x85 (R223). -/
def execStaZp (v : Byte) (s : State) : Out := formatF2 0x85#8 .STA .ZP v s
/-- STA ZPX, opcode 0x95 (R223). -/
def execStaZpx (v : Byte) (s : State) : Out := formatF2 0x95#8 .STA .ZPX v s
/-- STA ABS, opcode 0x8D (R223). -/
def execStaAbs (w : Word) (s : State) : Out := formatF3 0x8D#8 .STA .ABS w s
/-- STA ABX, opcode 0x9D (R223). -/
def execStaAbx (w : Word) (s : State) : Out := formatF3 0x9D#8 .STA .ABX w s
/-- STA ABY, opcode 0x99 (R223). -/
def execStaAby (w : Word) (s : State) : Out := formatF3 0x99#8 .STA .ABY w s
/-- STA IZX, opcode 0x81 (R223). -/
def execStaIzx (v : Byte) (s : State) : Out := formatF2 0x81#8 .STA .IZX v s
/-- STA IZY, opcode 0x91 (R223). -/
def execStaIzy (v : Byte) (s : State) : Out := formatF2 0x91#8 .STA .IZY v s

/-! STX, store X register (R224). -/

/-- STX ZP, opcode 0x86 (R224). -/
def execStxZp (v : Byte) (s : State) : Out := formatF2 0x86#8 .STX .ZP v s
/-- STX ZPY, opcode 0x96 (R224). -/
def execStxZpy (v : Byte) (s : State) : Out := formatF2 0x96#8 .STX .ZPY v s
/-- STX ABS, opcode 0x8E (R224). -/
def execStxAbs (w : Word) (s : State) : Out := formatF3 0x8E#8 .STX .ABS w s

/-! STY, store Y register (R225). -/

/-- STY ZP, opcode 0x84 (R225). -/
def execStyZp (v : Byte) (s : State) : Out := formatF2 0x84#8 .STY .ZP v s
/-- STY ZPX, opcode 0x94 (R225). -/
def execStyZpx (v : Byte) (s : State) : Out := formatF2 0x94#8 .STY .ZPX v s
/-- STY ABS, opcode 0x8C (R225). -/
def execStyAbs (w : Word) (s : State) : Out := formatF3 0x8C#8 .STY .ABS w s

/-! TAX, transfer A to X (R226). -/

/-- TAX IMP, opcode 0xAA (R226). -/
def execTax (s : State) : Out := formatF1 0xAA#8 .TAX .IMP s

/-! TAY, transfer A to Y (R227). -/

/-- TAY IMP, opcode 0xA8 (R227). -/
def execTay (s : State) : Out := formatF1 0xA8#8 .TAY .IMP s

/-! TSX, transfer stack pointer to X (R228). -/

/-- TSX IMP, opcode 0xBA (R228). -/
def execTsx (s : State) : Out := formatF1 0xBA#8 .TSX .IMP s

/-! TXA, transfer X to A (R229). -/

/-- TXA IMP, opcode 0x8A (R229). -/
def execTxa (s : State) : Out := formatF1 0x8A#8 .TXA .IMP s

/-! TXS, transfer X to stack pointer (R230). -/

/-- TXS IMP, opcode 0x9A (R230). -/
def execTxs (s : State) : Out := formatF1 0x9A#8 .TXS .IMP s

/-! TYA, transfer Y to A (R231). -/

/-- TYA IMP, opcode 0x98 (R231). -/
def execTya (s : State) : Out := formatF1 0x98#8 .TYA .IMP s

/-! PHA, push accumulator (R232). -/

/-- PHA IMP, opcode 0x48 (R232). -/
def execPha (s : State) : Out := formatF1 0x48#8 .PHA .IMP s

/-! PHP, push processor status (R233). -/

/-- PHP IMP, opcode 0x08 (R233). -/
def execPhp (s : State) : Out := formatF1 0x08#8 .PHP .IMP s

/-! PLA, pull accumulator (R234). -/

/-- PLA IMP, opcode 0x68 (R234). -/
def execPla (s : State) : Out := formatF1 0x68#8 .PLA .IMP s

/-! PLP, pull processor status (R235). -/

/-- PLP IMP, opcode 0x28 (R235). -/
def execPlp (s : State) : Out := formatF1 0x28#8 .PLP .IMP s

end Sys2Proof.Machine
end

