-- ==== Sys2Proof/Machine/ShiftIncDec.lean ====
section
/-! DEFINITION. The shift, rotate, increment and decrement mnemonics (44_isa_shift_incdec.md). A meaning is the DIS step that names the
instruction (R274): its record is emitted and `DIS.off` advances. Nothing is executed (R7). -/

namespace Sys2Proof.Machine

/-! ASL, arithmetic shift left (R210). -/

/-- ASL ACC, opcode 0x0A (R210). -/
def execAslAcc (s : State) : Out := formatF1 0x0A#8 .ASL .ACC s
/-- ASL ZP, opcode 0x06 (R210). -/
def execAslZp (v : Byte) (s : State) : Out := formatF2 0x06#8 .ASL .ZP v s
/-- ASL ZPX, opcode 0x16 (R210). -/
def execAslZpx (v : Byte) (s : State) : Out := formatF2 0x16#8 .ASL .ZPX v s
/-- ASL ABS, opcode 0x0E (R210). -/
def execAslAbs (w : Word) (s : State) : Out := formatF3 0x0E#8 .ASL .ABS w s
/-- ASL ABX, opcode 0x1E (R210). -/
def execAslAbx (w : Word) (s : State) : Out := formatF3 0x1E#8 .ASL .ABX w s

/-! LSR, logical shift right (R211). -/

/-- LSR ACC, opcode 0x4A (R211). -/
def execLsrAcc (s : State) : Out := formatF1 0x4A#8 .LSR .ACC s
/-- LSR ZP, opcode 0x46 (R211). -/
def execLsrZp (v : Byte) (s : State) : Out := formatF2 0x46#8 .LSR .ZP v s
/-- LSR ZPX, opcode 0x56 (R211). -/
def execLsrZpx (v : Byte) (s : State) : Out := formatF2 0x56#8 .LSR .ZPX v s
/-- LSR ABS, opcode 0x4E (R211). -/
def execLsrAbs (w : Word) (s : State) : Out := formatF3 0x4E#8 .LSR .ABS w s
/-- LSR ABX, opcode 0x5E (R211). -/
def execLsrAbx (w : Word) (s : State) : Out := formatF3 0x5E#8 .LSR .ABX w s

/-! ROL, rotate left (R212). -/

/-- ROL ACC, opcode 0x2A (R212). -/
def execRolAcc (s : State) : Out := formatF1 0x2A#8 .ROL .ACC s
/-- ROL ZP, opcode 0x26 (R212). -/
def execRolZp (v : Byte) (s : State) : Out := formatF2 0x26#8 .ROL .ZP v s
/-- ROL ZPX, opcode 0x36 (R212). -/
def execRolZpx (v : Byte) (s : State) : Out := formatF2 0x36#8 .ROL .ZPX v s
/-- ROL ABS, opcode 0x2E (R212). -/
def execRolAbs (w : Word) (s : State) : Out := formatF3 0x2E#8 .ROL .ABS w s
/-- ROL ABX, opcode 0x3E (R212). -/
def execRolAbx (w : Word) (s : State) : Out := formatF3 0x3E#8 .ROL .ABX w s

/-! ROR, rotate right (R213). -/

/-- ROR ACC, opcode 0x6A (R213). -/
def execRorAcc (s : State) : Out := formatF1 0x6A#8 .ROR .ACC s
/-- ROR ZP, opcode 0x66 (R213). -/
def execRorZp (v : Byte) (s : State) : Out := formatF2 0x66#8 .ROR .ZP v s
/-- ROR ZPX, opcode 0x76 (R213). -/
def execRorZpx (v : Byte) (s : State) : Out := formatF2 0x76#8 .ROR .ZPX v s
/-- ROR ABS, opcode 0x6E (R213). -/
def execRorAbs (w : Word) (s : State) : Out := formatF3 0x6E#8 .ROR .ABS w s
/-- ROR ABX, opcode 0x7E (R213). -/
def execRorAbx (w : Word) (s : State) : Out := formatF3 0x7E#8 .ROR .ABX w s

/-! INC, increment memory (R214). -/

/-- INC ZP, opcode 0xE6 (R214). -/
def execIncZp (v : Byte) (s : State) : Out := formatF2 0xE6#8 .INC .ZP v s
/-- INC ZPX, opcode 0xF6 (R214). -/
def execIncZpx (v : Byte) (s : State) : Out := formatF2 0xF6#8 .INC .ZPX v s
/-- INC ABS, opcode 0xEE (R214). -/
def execIncAbs (w : Word) (s : State) : Out := formatF3 0xEE#8 .INC .ABS w s
/-- INC ABX, opcode 0xFE (R214). -/
def execIncAbx (w : Word) (s : State) : Out := formatF3 0xFE#8 .INC .ABX w s

/-! DEC, decrement memory (R215). -/

/-- DEC ZP, opcode 0xC6 (R215). -/
def execDecZp (v : Byte) (s : State) : Out := formatF2 0xC6#8 .DEC .ZP v s
/-- DEC ZPX, opcode 0xD6 (R215). -/
def execDecZpx (v : Byte) (s : State) : Out := formatF2 0xD6#8 .DEC .ZPX v s
/-- DEC ABS, opcode 0xCE (R215). -/
def execDecAbs (w : Word) (s : State) : Out := formatF3 0xCE#8 .DEC .ABS w s
/-- DEC ABX, opcode 0xDE (R215). -/
def execDecAbx (w : Word) (s : State) : Out := formatF3 0xDE#8 .DEC .ABX w s

/-! INX, increment X (R216). -/

/-- INX IMP, opcode 0xE8 (R216). -/
def execInx (s : State) : Out := formatF1 0xE8#8 .INX .IMP s

/-! INY, increment Y (R217). -/

/-- INY IMP, opcode 0xC8 (R217). -/
def execIny (s : State) : Out := formatF1 0xC8#8 .INY .IMP s

/-! DEX, decrement X (R218). -/

/-- DEX IMP, opcode 0xCA (R218). -/
def execDex (s : State) : Out := formatF1 0xCA#8 .DEX .IMP s

/-! DEY, decrement Y (R219). -/

/-- DEY IMP, opcode 0x88 (R219). -/
def execDey (s : State) : Out := formatF1 0x88#8 .DEY .IMP s

end Sys2Proof.Machine
end

