-- ==== Sys2Proof/Machine/Unknown.lean ====
section
/-! DEFINITION. The fallback entry (R172): "mnemonic = 'unknown', addressing mode = 'unknown', length = 1".
It is no error and does not halt the walk (R279, R305). -/

namespace Sys2Proof.Machine

/-- The `unknown` instruction of an undocumented opcode byte `b` (R172). -/
def execUnknown (b : Byte) (s : State) : Out := formatF1 b .unknown .unknown s

end Sys2Proof.Machine
end

