-- ==== Sys2Proof/Machine/Dispatch.lean ====
section
/-! DEFINITION. One arm per constructor of Instr, each one call of its meaning. -/

namespace Sys2Proof.Machine

def exec (i : Instr) (s : State) : Host.Outcome State Fault Refusal :=
  match i with
  | .adcImm v => Sys2Proof.Machine.execAdcImm v s
  | .adcZp v => Sys2Proof.Machine.execAdcZp v s
  | .adcZpx v => Sys2Proof.Machine.execAdcZpx v s
  | .adcAbs w => Sys2Proof.Machine.execAdcAbs w s
  | .adcAbx w => Sys2Proof.Machine.execAdcAbx w s
  | .adcAby w => Sys2Proof.Machine.execAdcAby w s
  | .adcIzx v => Sys2Proof.Machine.execAdcIzx v s
  | .adcIzy v => Sys2Proof.Machine.execAdcIzy v s
  | .sbcImm v => Sys2Proof.Machine.execSbcImm v s
  | .sbcZp v => Sys2Proof.Machine.execSbcZp v s
  | .sbcZpx v => Sys2Proof.Machine.execSbcZpx v s
  | .sbcAbs w => Sys2Proof.Machine.execSbcAbs w s
  | .sbcAbx w => Sys2Proof.Machine.execSbcAbx w s
  | .sbcAby w => Sys2Proof.Machine.execSbcAby w s
  | .sbcIzx v => Sys2Proof.Machine.execSbcIzx v s
  | .sbcIzy v => Sys2Proof.Machine.execSbcIzy v s
  | .andImm v => Sys2Proof.Machine.execAndImm v s
  | .andZp v => Sys2Proof.Machine.execAndZp v s
  | .andZpx v => Sys2Proof.Machine.execAndZpx v s
  | .andAbs w => Sys2Proof.Machine.execAndAbs w s
  | .andAbx w => Sys2Proof.Machine.execAndAbx w s
  | .andAby w => Sys2Proof.Machine.execAndAby w s
  | .andIzx v => Sys2Proof.Machine.execAndIzx v s
  | .andIzy v => Sys2Proof.Machine.execAndIzy v s
  | .oraImm v => Sys2Proof.Machine.execOraImm v s
  | .oraZp v => Sys2Proof.Machine.execOraZp v s
  | .oraZpx v => Sys2Proof.Machine.execOraZpx v s
  | .oraAbs w => Sys2Proof.Machine.execOraAbs w s
  | .oraAbx w => Sys2Proof.Machine.execOraAbx w s
  | .oraAby w => Sys2Proof.Machine.execOraAby w s
  | .oraIzx v => Sys2Proof.Machine.execOraIzx v s
  | .oraIzy v => Sys2Proof.Machine.execOraIzy v s
  | .eorImm v => Sys2Proof.Machine.execEorImm v s
  | .eorZp v => Sys2Proof.Machine.execEorZp v s
  | .eorZpx v => Sys2Proof.Machine.execEorZpx v s
  | .eorAbs w => Sys2Proof.Machine.execEorAbs w s
  | .eorAbx w => Sys2Proof.Machine.execEorAbx w s
  | .eorAby w => Sys2Proof.Machine.execEorAby w s
  | .eorIzx v => Sys2Proof.Machine.execEorIzx v s
  | .eorIzy v => Sys2Proof.Machine.execEorIzy v s
  | .bitZp v => Sys2Proof.Machine.execBitZp v s
  | .bitAbs w => Sys2Proof.Machine.execBitAbs w s
  | .cmpImm v => Sys2Proof.Machine.execCmpImm v s
  | .cmpZp v => Sys2Proof.Machine.execCmpZp v s
  | .cmpZpx v => Sys2Proof.Machine.execCmpZpx v s
  | .cmpAbs w => Sys2Proof.Machine.execCmpAbs w s
  | .cmpAbx w => Sys2Proof.Machine.execCmpAbx w s
  | .cmpAby w => Sys2Proof.Machine.execCmpAby w s
  | .cmpIzx v => Sys2Proof.Machine.execCmpIzx v s
  | .cmpIzy v => Sys2Proof.Machine.execCmpIzy v s
  | .cpxImm v => Sys2Proof.Machine.execCpxImm v s
  | .cpxZp v => Sys2Proof.Machine.execCpxZp v s
  | .cpxAbs w => Sys2Proof.Machine.execCpxAbs w s
  | .cpyImm v => Sys2Proof.Machine.execCpyImm v s
  | .cpyZp v => Sys2Proof.Machine.execCpyZp v s
  | .cpyAbs w => Sys2Proof.Machine.execCpyAbs w s
  | .aslAcc => Sys2Proof.Machine.execAslAcc s
  | .aslZp v => Sys2Proof.Machine.execAslZp v s
  | .aslZpx v => Sys2Proof.Machine.execAslZpx v s
  | .aslAbs w => Sys2Proof.Machine.execAslAbs w s
  | .aslAbx w => Sys2Proof.Machine.execAslAbx w s
  | .lsrAcc => Sys2Proof.Machine.execLsrAcc s
  | .lsrZp v => Sys2Proof.Machine.execLsrZp v s
  | .lsrZpx v => Sys2Proof.Machine.execLsrZpx v s
  | .lsrAbs w => Sys2Proof.Machine.execLsrAbs w s
  | .lsrAbx w => Sys2Proof.Machine.execLsrAbx w s
  | .rolAcc => Sys2Proof.Machine.execRolAcc s
  | .rolZp v => Sys2Proof.Machine.execRolZp v s
  | .rolZpx v => Sys2Proof.Machine.execRolZpx v s
  | .rolAbs w => Sys2Proof.Machine.execRolAbs w s
  | .rolAbx w => Sys2Proof.Machine.execRolAbx w s
  | .rorAcc => Sys2Proof.Machine.execRorAcc s
  | .rorZp v => Sys2Proof.Machine.execRorZp v s
  | .rorZpx v => Sys2Proof.Machine.execRorZpx v s
  | .rorAbs w => Sys2Proof.Machine.execRorAbs w s
  | .rorAbx w => Sys2Proof.Machine.execRorAbx w s
  | .incZp v => Sys2Proof.Machine.execIncZp v s
  | .incZpx v => Sys2Proof.Machine.execIncZpx v s
  | .incAbs w => Sys2Proof.Machine.execIncAbs w s
  | .incAbx w => Sys2Proof.Machine.execIncAbx w s
  | .decZp v => Sys2Proof.Machine.execDecZp v s
  | .decZpx v => Sys2Proof.Machine.execDecZpx v s
  | .decAbs w => Sys2Proof.Machine.execDecAbs w s
  | .decAbx w => Sys2Proof.Machine.execDecAbx w s
  | .inx => Sys2Proof.Machine.execInx s
  | .iny => Sys2Proof.Machine.execIny s
  | .dex => Sys2Proof.Machine.execDex s
  | .dey => Sys2Proof.Machine.execDey s
  | .ldaImm v => Sys2Proof.Machine.execLdaImm v s
  | .ldaZp v => Sys2Proof.Machine.execLdaZp v s
  | .ldaZpx v => Sys2Proof.Machine.execLdaZpx v s
  | .ldaAbs w => Sys2Proof.Machine.execLdaAbs w s
  | .ldaAbx w => Sys2Proof.Machine.execLdaAbx w s
  | .ldaAby w => Sys2Proof.Machine.execLdaAby w s
  | .ldaIzx v => Sys2Proof.Machine.execLdaIzx v s
  | .ldaIzy v => Sys2Proof.Machine.execLdaIzy v s
  | .ldxImm v => Sys2Proof.Machine.execLdxImm v s
  | .ldxZp v => Sys2Proof.Machine.execLdxZp v s
  | .ldxZpy v => Sys2Proof.Machine.execLdxZpy v s
  | .ldxAbs w => Sys2Proof.Machine.execLdxAbs w s
  | .ldxAby w => Sys2Proof.Machine.execLdxAby w s
  | .ldyImm v => Sys2Proof.Machine.execLdyImm v s
  | .ldyZp v => Sys2Proof.Machine.execLdyZp v s
  | .ldyZpx v => Sys2Proof.Machine.execLdyZpx v s
  | .ldyAbs w => Sys2Proof.Machine.execLdyAbs w s
  | .ldyAbx w => Sys2Proof.Machine.execLdyAbx w s
  | .staZp v => Sys2Proof.Machine.execStaZp v s
  | .staZpx v => Sys2Proof.Machine.execStaZpx v s
  | .staAbs w => Sys2Proof.Machine.execStaAbs w s
  | .staAbx w => Sys2Proof.Machine.execStaAbx w s
  | .staAby w => Sys2Proof.Machine.execStaAby w s
  | .staIzx v => Sys2Proof.Machine.execStaIzx v s
  | .staIzy v => Sys2Proof.Machine.execStaIzy v s
  | .stxZp v => Sys2Proof.Machine.execStxZp v s
  | .stxZpy v => Sys2Proof.Machine.execStxZpy v s
  | .stxAbs w => Sys2Proof.Machine.execStxAbs w s
  | .styZp v => Sys2Proof.Machine.execStyZp v s
  | .styZpx v => Sys2Proof.Machine.execStyZpx v s
  | .styAbs w => Sys2Proof.Machine.execStyAbs w s
  | .tax => Sys2Proof.Machine.execTax s
  | .tay => Sys2Proof.Machine.execTay s
  | .tsx => Sys2Proof.Machine.execTsx s
  | .txa => Sys2Proof.Machine.execTxa s
  | .txs => Sys2Proof.Machine.execTxs s
  | .tya => Sys2Proof.Machine.execTya s
  | .pha => Sys2Proof.Machine.execPha s
  | .php => Sys2Proof.Machine.execPhp s
  | .pla => Sys2Proof.Machine.execPla s
  | .plp => Sys2Proof.Machine.execPlp s
  | .jmpAbs w => Sys2Proof.Machine.execJmpAbs w s
  | .jmpInd w => Sys2Proof.Machine.execJmpInd w s
  | .jsrAbs w => Sys2Proof.Machine.execJsrAbs w s
  | .rts => Sys2Proof.Machine.execRts s
  | .rti => Sys2Proof.Machine.execRti s
  | .brk => Sys2Proof.Machine.execBrk s
  | .nop => Sys2Proof.Machine.execNop s
  | .bccRel v => Sys2Proof.Machine.execBccRel v s
  | .bcsRel v => Sys2Proof.Machine.execBcsRel v s
  | .beqRel v => Sys2Proof.Machine.execBeqRel v s
  | .bmiRel v => Sys2Proof.Machine.execBmiRel v s
  | .bneRel v => Sys2Proof.Machine.execBneRel v s
  | .bplRel v => Sys2Proof.Machine.execBplRel v s
  | .bvcRel v => Sys2Proof.Machine.execBvcRel v s
  | .bvsRel v => Sys2Proof.Machine.execBvsRel v s
  | .clc => Sys2Proof.Machine.execClc s
  | .cld => Sys2Proof.Machine.execCld s
  | .cli => Sys2Proof.Machine.execCli s
  | .clv => Sys2Proof.Machine.execClv s
  | .sec => Sys2Proof.Machine.execSec s
  | .sed => Sys2Proof.Machine.execSed s
  | .sei => Sys2Proof.Machine.execSei s
  | .unknown b => Sys2Proof.Machine.execUnknown b s

end Sys2Proof.Machine
end

