-- ==== Sys2Proof/Machine/Run.lean ====
section
/-! DEFINITION. One step of a running walk: fetching the instruction at `DIS.off` (R274) and the loop's end (R273). -/

namespace Sys2Proof.Machine

/-- The bytes the instruction at `off` may use: at most three, none at or beyond `high` (R274). -/
def fetchWindow (code : Memory) (off high : Nat) : List Byte := code.slice off (min 3 (high - off))

/-- The step's fetch found fewer than `len` bytes of the instruction `b` at `off`: `TruncatedInstruction` when they pass
`high` (R277); otherwise the buffer itself is too short, which no accepted command allows (R271). -/
def shortFetch (b : Byte) (len off high : Nat) (s : State) : Out :=
  if high < off + len then .next (s.raiseTruncated off b len (high - off))
  else .fault .outsideBuffer

/-- A step of a walk: the decoded instruction's meaning, then the loop's test (R273, R274). -/
def runStep (s : State) : Out :=
  match s.dis.off, s.dis.high with
  | some off, some high =>
    if high ≤ off then .next s.endWalk
    else
      match decode (fetchWindow s.input.code off high) with
      | .ok i _ => mapNext State.finishIfDone (exec i s)
      | .reject (.truncated b len _) => shortFetch b len off high s
      | .reject .noBytes => .fault .outsideBuffer
  | _, _ => .fault .absentRegister

end Sys2Proof.Machine
end

