-- ==== Sys2Proof/Machine/Step.lean ====
section
/-! DEFINITION. The step of the block (R346): a reset if the host asserts it, else one step of the walk or of the idle
block. -/

namespace Sys2Proof.Machine

/-- One step. -/
def step (s : State) : Host.Outcome State Fault Refusal :=
  if s.host.reset then .next s.applyReset
  else
    match s.phase with
    | .disRun => runStep s
    | .idle => idleStep s

/-- `s` with the instruction of table word `w` at `DIS.off`, in a running walk that reaches it: the very next step
runs it. This stands for the host's `disassemble` of a code buffer that holds it (notes/assumptions/3.md). Registers
that hold no value yet take the values such a command gives them. -/
def State.withFetchWord (s : State) (nbits w : Nat) : State :=
  let off := s.dis.off.getD 0
  { s with
    dis :=
      { s.dis with
        off := some off
        low := some (s.dis.low.getD off)
        high := some (max (s.dis.high.getD 0) (off + 3))
        base := some (s.dis.base.getD 0#16) }
    phase := .disRun
    job := if s.phase = .disRun then s.job else .disassemble
    input := { s.input with code := s.input.code.place off (tableBytes nbits w) }
    host := { s.host with reset := false } }

end Sys2Proof.Machine
end

