-- ==== Sys2Proof/Machine/Walk.lean ====
section
/-! DEFINITION. `disassemble` as the pure function of R284: the records of `[low, high)` and the final status, by a
linear sweep over the bytes and the ROM alone (R278, R283 (e)). It names no instruction and no register. -/

namespace Sys2Proof.Machine

/-- The sweep over the bytes `bs` of the range from offset `off` on; `fuel` bounds the number of steps (R283 (a)). -/
def sweep : Nat → Nat → List Byte → List Record × Status
  | 0, _, _ => ([], .ok)
  | _, _, [] => ([], .ok)
  | fuel + 1, off, b :: rest =>
    let e := rom b
    if rest.length + 1 < e.len then ([], .truncatedInstruction off b e.len (rest.length + 1))
    else
      let r : Record :=
        { mn := e.mn, mode := e.mode, len := e.len
          operand := operandOf e.len (rest.getD 0 0#8) (rest.getD 1 0#8), offset := off, opcode := b }
      let t := sweep fuel (off + e.len) (rest.drop (e.len - 1))
      (r :: t.1, t.2)

/-- The records and the status of `disassemble(code, _, low, high)` for a range inside the buffer (R284). -/
def sweepRange (code : List Byte) (low high : Nat) : List Record × Status :=
  sweep (high - low) low ((code.drop low).take (high - low))

end Sys2Proof.Machine
end

