-- ==== Sys2Proof/Safety.lean ====
section
/-! DEFINITION. The terms the statements use: a running walk, well-formed records and header records, exact cover of a
range, the block's invariant, one row of the opcode table, and sequences of cursor operations. -/

namespace Sys2Proof

/-- A configuration under which a command on `len` bytes is not refused (R9, U17). -/
def Config.accepts (c : Config) (len : Nat) : Prop :=
  c.admitted = true ∧ ∀ max, c.maxBufLen = some max → len ≤ max

end Sys2Proof

namespace Sys2Proof.Machine

/-! ## Running walks -/

/-- A step of the walk exists (R273, R274): `PHASE = DIS_RUN`, `DIS.off = off < high = DIS.high`. -/
def State.runningAt (s : State) (off high : Nat) : Prop :=
  s.phase = .disRun ∧ s.dis.off = some off ∧ s.dis.high = some high ∧ off < high

/-- An idle block that takes the host's next command `r`, with `rs` to follow (R33, R336). -/
def State.takes (s : State) (r : Request) (rs : List Request) : Prop :=
  s.host.reset = false ∧ s.phase = .idle ∧ s.job = .noCommand ∧ s.host.requests = r :: rs

/-! ## Well-formed records -/

/-- The invariants of an instruction record (R35): the ROM's triple for its opcode byte, the length of its
mode, an operand of `8 * (len - 1)` bits. -/
def Record.wf (r : Record) : Prop :=
  rom r.opcode = ⟨r.mn, r.mode, r.len⟩ ∧ r.len = r.mode.length ∧ r.operand.bytes.length + 1 = r.len

/-- A text register's value (R25, R134): at most 32 bytes, no trailing null. -/
def textWf (bs : List Byte) : Prop := bs.length ≤ 32 ∧ bs.getLast? ≠ some 0#8

/-- The widths and derived fields of a header record (R24, R25, R155, R156). -/
def Header.wf (h : Header) : Prop :=
  h.magic.length = 5 ∧ textWf h.title ∧ textWf h.artist ∧ textWf h.copyright ∧ h.bankswitchInit.length = 8 ∧
  h.tvStandard = tvStandardOf h.palMode h.dualMode ∧ h.ntscMode = ntscModeOf h.tvStandard

/-- The tune-record registers are all absent, or hold the fields of one `analyze` (R292 to R297). -/
def TuneRegs.wf (t : TuneRegs) : Prop :=
  t = TuneRegs.reset ∨
  ∃ name size dropped deferred raw,
    t.name = some name ∧ t.codeSize = some size ∧ t.codeEmpty = some (decide (size = 0)) ∧
    (t.lastCodeAddr = none ↔ size = 0) ∧
    (t.addrOverflow = some true ↔ ∃ a, t.lastCodeAddr = some a ∧ 0xFFFF < a) ∧
    t.dropped = some dropped ∧ dropped ≤ size ∧ t.clipped = some (decide (0 < dropped)) ∧
    t.deferred = some deferred ∧ t.rawCode = raw ∧ (deferred = true ↔ raw.isSome)

/-- The records' intervals `[offset, offset + len)` partition `[low, high)` in order (R283 (b)). -/
def tiles (low : Nat) : List Record → Nat → Prop
  | [], high => low = high
  | r :: rs, high => r.offset = low ∧ tiles (low + r.len) rs high

/-- The sum of the records' lengths (R283 (b)). -/
def totalLen (rs : List Record) : Nat := (rs.map Record.len).sum

/-! ## The invariant -/

/-- A running walk (R271, R283, R32): inside its range, the range inside the buffer, the emitted records covering exactly what
has been walked. -/
def State.walkInv (s : State) : Prop :=
  (s.job = .disassemble ∨ s.job = .analyze) ∧
  ∃ low off high base,
    s.dis.low = some low ∧ s.dis.off = some off ∧ s.dis.high = some high ∧ s.dis.base = some base ∧
    low ≤ off ∧ off < high ∧ high ≤ s.input.code.size ∧ tiles low s.out off ∧ s.dis.count = s.out.length

/-- The invariant every step keeps. -/
structure State.Inv (s : State) : Prop where
  bufWf      : s.input.buf.wf = true
  codeWf     : s.input.code.wf = true
  curBound   : ∀ p, s.cur = some p → p ≤ s.input.buf.size
  hdrWf      : ∀ h, s.hdr = some h → h.wf
  irWf       : ∀ r, s.ir = some r → r.wf
  outWf      : ∀ r, r ∈ s.out → r.wf
  trWf       : s.tr.wf
  running    : s.phase = .disRun → s.walkInv
  waiting    : s.phase = .idle → s.job = .noCommand ∨ s.job = .analyzeDue
  due        : s.job = .analyzeDue → s.hdr.isSome = true ∧ s.out = []
  analyzing  : s.job = .analyzeDue ∨ s.job = .analyze → s.tr.present = false ∧ s.tr.codeSize.isSome = true

/-! ## Rows of the opcode table -/

/-- One row of an ISA family rule (R200 to R260, R172): the encoding, the ROM word and triple, the record the instruction's
meaning emits, and the step that decodes the row's bytes: the record is emitted, `DIS.off` is past the instruction, and the
walk goes on there or, at `high`, ends `OK`. -/
def RowHolds (i : Instr) (opc : Byte) (word : BitVec 12) (mn : Mnemonic) (mode : Mode) (operand : Operand) : Prop :=
  let len := operand.bytes.length + 1
  encode i = opc :: operand.bytes ∧ romWord opc = word ∧ rom opc = ⟨mn, mode, len⟩ ∧
  ∀ (s : State) (off high : Nat), s.runningAt off high → off + len ≤ high →
    let r : Record := { mn, mode, len, operand, offset := off, opcode := opc }
    exec i s = .next (s.commit r) ∧
    (s.host.reset = false → s.input.code.slice off len = opc :: operand.bytes →
      ∃ t, step s = .next t ∧ t = (s.commit r).finishIfDone ∧
        (off + len < high → t.runningAt (off + len) high) ∧
        (off + len = high → t.phase = .idle ∧ t.st = .ok ∧ t.dis.off = some high))

/-- The mnemonic's id and exactly the opcode bytes it decodes from. -/
def DecodesFrom (mn : Mnemonic) (id : Nat) (opcodes : List Byte) : Prop :=
  mn.id = id ∧ opcodes.Nodup ∧ ∀ b, (rom b).mn = mn ↔ b ∈ opcodes

/-- These bytes take the fallback entry (R172). -/
def FallBack (bs : List Byte) : Prop := ∀ b ∈ bs, rom b = ⟨.unknown, .unknown, 1⟩

/-! ## Sequences of cursor operations (R137) -/

/-- A cursor operation. -/
inductive CursorOp where
  | raw (n : Nat)
  | u8
  | u16
  | text (n : Nat)
  | skip (n : Nat)
  deriving DecidableEq, Repr

/-- The `N` of an operation (R137). -/
def CursorOp.size : CursorOp → Nat
  | .raw n => n
  | .u8 => 1
  | .u16 => 2
  | .text n => n
  | .skip n => n

/-- The operation, its value dropped. -/
def CursorOp.run : CursorOp → CursorM Unit
  | .raw n => do let _ ← readRaw n
  | .u8 => do let _ ← readU8
  | .u16 => do let _ ← readU16
  | .text n => do let _ ← readText n
  | .skip n => Sys2Proof.Machine.skip n

/-- The operations in order, ending at the first error. -/
def runOps : List CursorOp → CursorM Unit
  | [] => pure ()
  | op :: ops => do op.run; runOps ops

end Sys2Proof.Machine
end

