-- ==== Sys2Proof/Certificates/Slice0/Obligations.lean ====
section
/-! DEFINITION. The statements for the provers, by the spec's numbered rules. -/

open Sys2Proof Sys2Proof.Machine

/-! ## The instructions, family by family -/

/-- R200, R201, R202, R203, R204: ADC, SBC, AND, ORA, EOR. Every row of each rule: opcode, mode, length, ROM word, the record emitted and the step. -/
def Obligations.ArithmeticLogicRows : Prop :=
  ∀ (v : Byte) (w : Word),
    DecodesFrom .ADC 1 [0x69, 0x65, 0x75, 0x6D, 0x7D, 0x79, 0x61, 0x71] ∧
    RowHolds (.adcImm v) 0x69 0x046 .ADC .IMM (.u8 v) ∧
    RowHolds (.adcZp v) 0x65 0x04A .ADC .ZP (.u8 v) ∧
    RowHolds (.adcZpx v) 0x75 0x04E .ADC .ZPX (.u8 v) ∧
    RowHolds (.adcAbs w) 0x6D 0x057 .ADC .ABS (.u16 w) ∧
    RowHolds (.adcAbx w) 0x7D 0x05B .ADC .ABX (.u16 w) ∧
    RowHolds (.adcAby w) 0x79 0x05F .ADC .ABY (.u16 w) ∧
    RowHolds (.adcIzx v) 0x61 0x066 .ADC .IZX (.u8 v) ∧
    RowHolds (.adcIzy v) 0x71 0x06A .ADC .IZY (.u8 v) ∧
    DecodesFrom .SBC 44 [0xE9, 0xE5, 0xF5, 0xED, 0xFD, 0xF9, 0xE1, 0xF1] ∧
    FallBack [0xEB] ∧
    RowHolds (.sbcImm v) 0xE9 0xB06 .SBC .IMM (.u8 v) ∧
    RowHolds (.sbcZp v) 0xE5 0xB0A .SBC .ZP (.u8 v) ∧
    RowHolds (.sbcZpx v) 0xF5 0xB0E .SBC .ZPX (.u8 v) ∧
    RowHolds (.sbcAbs w) 0xED 0xB17 .SBC .ABS (.u16 w) ∧
    RowHolds (.sbcAbx w) 0xFD 0xB1B .SBC .ABX (.u16 w) ∧
    RowHolds (.sbcAby w) 0xF9 0xB1F .SBC .ABY (.u16 w) ∧
    RowHolds (.sbcIzx v) 0xE1 0xB26 .SBC .IZX (.u8 v) ∧
    RowHolds (.sbcIzy v) 0xF1 0xB2A .SBC .IZY (.u8 v) ∧
    DecodesFrom .AND 2 [0x29, 0x25, 0x35, 0x2D, 0x3D, 0x39, 0x21, 0x31] ∧
    RowHolds (.andImm v) 0x29 0x086 .AND .IMM (.u8 v) ∧
    RowHolds (.andZp v) 0x25 0x08A .AND .ZP (.u8 v) ∧
    RowHolds (.andZpx v) 0x35 0x08E .AND .ZPX (.u8 v) ∧
    RowHolds (.andAbs w) 0x2D 0x097 .AND .ABS (.u16 w) ∧
    RowHolds (.andAbx w) 0x3D 0x09B .AND .ABX (.u16 w) ∧
    RowHolds (.andAby w) 0x39 0x09F .AND .ABY (.u16 w) ∧
    RowHolds (.andIzx v) 0x21 0x0A6 .AND .IZX (.u8 v) ∧
    RowHolds (.andIzy v) 0x31 0x0AA .AND .IZY (.u8 v) ∧
    DecodesFrom .ORA 35 [0x09, 0x05, 0x15, 0x0D, 0x1D, 0x19, 0x01, 0x11] ∧
    RowHolds (.oraImm v) 0x09 0x8C6 .ORA .IMM (.u8 v) ∧
    RowHolds (.oraZp v) 0x05 0x8CA .ORA .ZP (.u8 v) ∧
    RowHolds (.oraZpx v) 0x15 0x8CE .ORA .ZPX (.u8 v) ∧
    RowHolds (.oraAbs w) 0x0D 0x8D7 .ORA .ABS (.u16 w) ∧
    RowHolds (.oraAbx w) 0x1D 0x8DB .ORA .ABX (.u16 w) ∧
    RowHolds (.oraAby w) 0x19 0x8DF .ORA .ABY (.u16 w) ∧
    RowHolds (.oraIzx v) 0x01 0x8E6 .ORA .IZX (.u8 v) ∧
    RowHolds (.oraIzy v) 0x11 0x8EA .ORA .IZY (.u8 v) ∧
    DecodesFrom .EOR 24 [0x49, 0x45, 0x55, 0x4D, 0x5D, 0x59, 0x41, 0x51] ∧
    RowHolds (.eorImm v) 0x49 0x606 .EOR .IMM (.u8 v) ∧
    RowHolds (.eorZp v) 0x45 0x60A .EOR .ZP (.u8 v) ∧
    RowHolds (.eorZpx v) 0x55 0x60E .EOR .ZPX (.u8 v) ∧
    RowHolds (.eorAbs w) 0x4D 0x617 .EOR .ABS (.u16 w) ∧
    RowHolds (.eorAbx w) 0x5D 0x61B .EOR .ABX (.u16 w) ∧
    RowHolds (.eorAby w) 0x59 0x61F .EOR .ABY (.u16 w) ∧
    RowHolds (.eorIzx v) 0x41 0x626 .EOR .IZX (.u8 v) ∧
    RowHolds (.eorIzy v) 0x51 0x62A .EOR .IZY (.u8 v)

/-- R205, R206, R207, R208: BIT, CMP, CPX, CPY. Every row of each rule: opcode, mode, length, ROM word, the record emitted and the step. -/
def Obligations.BitCompareRows : Prop :=
  ∀ (v : Byte) (w : Word),
    DecodesFrom .BIT 7 [0x24, 0x2C] ∧
    FallBack [0x34, 0x3C, 0x89] ∧
    RowHolds (.bitZp v) 0x24 0x1CA .BIT .ZP (.u8 v) ∧
    RowHolds (.bitAbs w) 0x2C 0x1D7 .BIT .ABS (.u16 w) ∧
    DecodesFrom .CMP 18 [0xC9, 0xC5, 0xD5, 0xCD, 0xDD, 0xD9, 0xC1, 0xD1] ∧
    RowHolds (.cmpImm v) 0xC9 0x486 .CMP .IMM (.u8 v) ∧
    RowHolds (.cmpZp v) 0xC5 0x48A .CMP .ZP (.u8 v) ∧
    RowHolds (.cmpZpx v) 0xD5 0x48E .CMP .ZPX (.u8 v) ∧
    RowHolds (.cmpAbs w) 0xCD 0x497 .CMP .ABS (.u16 w) ∧
    RowHolds (.cmpAbx w) 0xDD 0x49B .CMP .ABX (.u16 w) ∧
    RowHolds (.cmpAby w) 0xD9 0x49F .CMP .ABY (.u16 w) ∧
    RowHolds (.cmpIzx v) 0xC1 0x4A6 .CMP .IZX (.u8 v) ∧
    RowHolds (.cmpIzy v) 0xD1 0x4AA .CMP .IZY (.u8 v) ∧
    DecodesFrom .CPX 19 [0xE0, 0xE4, 0xEC] ∧
    FallBack [0xF4, 0xFC] ∧
    RowHolds (.cpxImm v) 0xE0 0x4C6 .CPX .IMM (.u8 v) ∧
    RowHolds (.cpxZp v) 0xE4 0x4CA .CPX .ZP (.u8 v) ∧
    RowHolds (.cpxAbs w) 0xEC 0x4D7 .CPX .ABS (.u16 w) ∧
    DecodesFrom .CPY 20 [0xC0, 0xC4, 0xCC] ∧
    FallBack [0xD4, 0xDC] ∧
    RowHolds (.cpyImm v) 0xC0 0x506 .CPY .IMM (.u8 v) ∧
    RowHolds (.cpyZp v) 0xC4 0x50A .CPY .ZP (.u8 v) ∧
    RowHolds (.cpyAbs w) 0xCC 0x517 .CPY .ABS (.u16 w)

/-- R210, R211, R212, R213: ASL, LSR, ROL, ROR. Every row of each rule: opcode, mode, length, ROM word, the record emitted and the step. -/
def Obligations.ShiftRotateRows : Prop :=
  ∀ (v : Byte) (w : Word),
    DecodesFrom .ASL 3 [0x0A, 0x06, 0x16, 0x0E, 0x1E] ∧
    RowHolds .aslAcc 0x0A 0x0ED .ASL .ACC .absent ∧
    RowHolds (.aslZp v) 0x06 0x0CA .ASL .ZP (.u8 v) ∧
    RowHolds (.aslZpx v) 0x16 0x0CE .ASL .ZPX (.u8 v) ∧
    RowHolds (.aslAbs w) 0x0E 0x0D7 .ASL .ABS (.u16 w) ∧
    RowHolds (.aslAbx w) 0x1E 0x0DB .ASL .ABX (.u16 w) ∧
    DecodesFrom .LSR 33 [0x4A, 0x46, 0x56, 0x4E, 0x5E] ∧
    RowHolds .lsrAcc 0x4A 0x86D .LSR .ACC .absent ∧
    RowHolds (.lsrZp v) 0x46 0x84A .LSR .ZP (.u8 v) ∧
    RowHolds (.lsrZpx v) 0x56 0x84E .LSR .ZPX (.u8 v) ∧
    RowHolds (.lsrAbs w) 0x4E 0x857 .LSR .ABS (.u16 w) ∧
    RowHolds (.lsrAbx w) 0x5E 0x85B .LSR .ABX (.u16 w) ∧
    DecodesFrom .ROL 40 [0x2A, 0x26, 0x36, 0x2E, 0x3E] ∧
    RowHolds .rolAcc 0x2A 0xA2D .ROL .ACC .absent ∧
    RowHolds (.rolZp v) 0x26 0xA0A .ROL .ZP (.u8 v) ∧
    RowHolds (.rolZpx v) 0x36 0xA0E .ROL .ZPX (.u8 v) ∧
    RowHolds (.rolAbs w) 0x2E 0xA17 .ROL .ABS (.u16 w) ∧
    RowHolds (.rolAbx w) 0x3E 0xA1B .ROL .ABX (.u16 w) ∧
    DecodesFrom .ROR 41 [0x6A, 0x66, 0x76, 0x6E, 0x7E] ∧
    RowHolds .rorAcc 0x6A 0xA6D .ROR .ACC .absent ∧
    RowHolds (.rorZp v) 0x66 0xA4A .ROR .ZP (.u8 v) ∧
    RowHolds (.rorZpx v) 0x76 0xA4E .ROR .ZPX (.u8 v) ∧
    RowHolds (.rorAbs w) 0x6E 0xA57 .ROR .ABS (.u16 w) ∧
    RowHolds (.rorAbx w) 0x7E 0xA5B .ROR .ABX (.u16 w)

/-- R214, R215, R216, R217, R218, R219: INC, DEC, INX, INY, DEX, DEY. Every row of each rule: opcode, mode, length, ROM word, the record emitted and the step. -/
def Obligations.IncrementDecrementRows : Prop :=
  ∀ (v : Byte) (w : Word),
    DecodesFrom .INC 25 [0xE6, 0xF6, 0xEE, 0xFE] ∧
    FallBack [0x1A] ∧
    RowHolds (.incZp v) 0xE6 0x64A .INC .ZP (.u8 v) ∧
    RowHolds (.incZpx v) 0xF6 0x64E .INC .ZPX (.u8 v) ∧
    RowHolds (.incAbs w) 0xEE 0x657 .INC .ABS (.u16 w) ∧
    RowHolds (.incAbx w) 0xFE 0x65B .INC .ABX (.u16 w) ∧
    DecodesFrom .DEC 21 [0xC6, 0xD6, 0xCE, 0xDE] ∧
    FallBack [0x3A] ∧
    RowHolds (.decZp v) 0xC6 0x54A .DEC .ZP (.u8 v) ∧
    RowHolds (.decZpx v) 0xD6 0x54E .DEC .ZPX (.u8 v) ∧
    RowHolds (.decAbs w) 0xCE 0x557 .DEC .ABS (.u16 w) ∧
    RowHolds (.decAbx w) 0xDE 0x55B .DEC .ABX (.u16 w) ∧
    DecodesFrom .INX 26 [0xE8] ∧
    RowHolds .inx 0xE8 0x6B1 .INX .IMP .absent ∧
    DecodesFrom .INY 27 [0xC8] ∧
    RowHolds .iny 0xC8 0x6F1 .INY .IMP .absent ∧
    DecodesFrom .DEX 22 [0xCA] ∧
    RowHolds .dex 0xCA 0x5B1 .DEX .IMP .absent ∧
    DecodesFrom .DEY 23 [0x88] ∧
    RowHolds .dey 0x88 0x5F1 .DEY .IMP .absent

/-- R220, R221, R222: LDA, LDX, LDY. Every row of each rule: opcode, mode, length, ROM word, the record emitted and the step. -/
def Obligations.LoadRows : Prop :=
  ∀ (v : Byte) (w : Word),
    DecodesFrom .LDA 30 [0xA9, 0xA5, 0xB5, 0xAD, 0xBD, 0xB9, 0xA1, 0xB1] ∧
    RowHolds (.ldaImm v) 0xA9 0x786 .LDA .IMM (.u8 v) ∧
    RowHolds (.ldaZp v) 0xA5 0x78A .LDA .ZP (.u8 v) ∧
    RowHolds (.ldaZpx v) 0xB5 0x78E .LDA .ZPX (.u8 v) ∧
    RowHolds (.ldaAbs w) 0xAD 0x797 .LDA .ABS (.u16 w) ∧
    RowHolds (.ldaAbx w) 0xBD 0x79B .LDA .ABX (.u16 w) ∧
    RowHolds (.ldaAby w) 0xB9 0x79F .LDA .ABY (.u16 w) ∧
    RowHolds (.ldaIzx v) 0xA1 0x7A6 .LDA .IZX (.u8 v) ∧
    RowHolds (.ldaIzy v) 0xB1 0x7AA .LDA .IZY (.u8 v) ∧
    DecodesFrom .LDX 31 [0xA2, 0xA6, 0xB6, 0xAE, 0xBE] ∧
    RowHolds (.ldxImm v) 0xA2 0x7C6 .LDX .IMM (.u8 v) ∧
    RowHolds (.ldxZp v) 0xA6 0x7CA .LDX .ZP (.u8 v) ∧
    RowHolds (.ldxZpy v) 0xB6 0x7D2 .LDX .ZPY (.u8 v) ∧
    RowHolds (.ldxAbs w) 0xAE 0x7D7 .LDX .ABS (.u16 w) ∧
    RowHolds (.ldxAby w) 0xBE 0x7DF .LDX .ABY (.u16 w) ∧
    DecodesFrom .LDY 32 [0xA0, 0xA4, 0xB4, 0xAC, 0xBC] ∧
    RowHolds (.ldyImm v) 0xA0 0x806 .LDY .IMM (.u8 v) ∧
    RowHolds (.ldyZp v) 0xA4 0x80A .LDY .ZP (.u8 v) ∧
    RowHolds (.ldyZpx v) 0xB4 0x80E .LDY .ZPX (.u8 v) ∧
    RowHolds (.ldyAbs w) 0xAC 0x817 .LDY .ABS (.u16 w) ∧
    RowHolds (.ldyAbx w) 0xBC 0x81B .LDY .ABX (.u16 w)

/-- R223, R224, R225: STA, STX, STY. Every row of each rule: opcode, mode, length, ROM word, the record emitted and the step. -/
def Obligations.StoreRows : Prop :=
  ∀ (v : Byte) (w : Word),
    DecodesFrom .STA 48 [0x85, 0x95, 0x8D, 0x9D, 0x99, 0x81, 0x91] ∧
    FallBack [0x89] ∧
    RowHolds (.staZp v) 0x85 0xC0A .STA .ZP (.u8 v) ∧
    RowHolds (.staZpx v) 0x95 0xC0E .STA .ZPX (.u8 v) ∧
    RowHolds (.staAbs w) 0x8D 0xC17 .STA .ABS (.u16 w) ∧
    RowHolds (.staAbx w) 0x9D 0xC1B .STA .ABX (.u16 w) ∧
    RowHolds (.staAby w) 0x99 0xC1F .STA .ABY (.u16 w) ∧
    RowHolds (.staIzx v) 0x81 0xC26 .STA .IZX (.u8 v) ∧
    RowHolds (.staIzy v) 0x91 0xC2A .STA .IZY (.u8 v) ∧
    DecodesFrom .STX 49 [0x86, 0x96, 0x8E] ∧
    FallBack [0x9E] ∧
    RowHolds (.stxZp v) 0x86 0xC4A .STX .ZP (.u8 v) ∧
    RowHolds (.stxZpy v) 0x96 0xC52 .STX .ZPY (.u8 v) ∧
    RowHolds (.stxAbs w) 0x8E 0xC57 .STX .ABS (.u16 w) ∧
    DecodesFrom .STY 50 [0x84, 0x94, 0x8C] ∧
    FallBack [0x9C] ∧
    RowHolds (.styZp v) 0x84 0xC8A .STY .ZP (.u8 v) ∧
    RowHolds (.styZpx v) 0x94 0xC8E .STY .ZPX (.u8 v) ∧
    RowHolds (.styAbs w) 0x8C 0xC97 .STY .ABS (.u16 w)

/-- R226, R227, R228, R229, R230, R231, R232, R233, R234, R235: TAX, TAY, TSX, TXA, TXS, TYA, PHA, PHP, PLA, PLP. Every row of each rule: opcode, mode, length, ROM word, the record emitted and the step. -/
def Obligations.TransferStackRows : Prop :=
    DecodesFrom .TAX 51 [0xAA] ∧
    RowHolds .tax 0xAA 0xCF1 .TAX .IMP .absent ∧
    DecodesFrom .TAY 52 [0xA8] ∧
    RowHolds .tay 0xA8 0xD31 .TAY .IMP .absent ∧
    DecodesFrom .TSX 53 [0xBA] ∧
    RowHolds .tsx 0xBA 0xD71 .TSX .IMP .absent ∧
    DecodesFrom .TXA 54 [0x8A] ∧
    RowHolds .txa 0x8A 0xDB1 .TXA .IMP .absent ∧
    DecodesFrom .TXS 55 [0x9A] ∧
    RowHolds .txs 0x9A 0xDF1 .TXS .IMP .absent ∧
    DecodesFrom .TYA 56 [0x98] ∧
    RowHolds .tya 0x98 0xE31 .TYA .IMP .absent ∧
    DecodesFrom .PHA 36 [0x48] ∧
    RowHolds .pha 0x48 0x931 .PHA .IMP .absent ∧
    DecodesFrom .PHP 37 [0x08] ∧
    RowHolds .php 0x08 0x971 .PHP .IMP .absent ∧
    DecodesFrom .PLA 38 [0x68] ∧
    RowHolds .pla 0x68 0x9B1 .PLA .IMP .absent ∧
    DecodesFrom .PLP 39 [0x28] ∧
    RowHolds .plp 0x28 0x9F1 .PLP .IMP .absent

/-- R240, R241, R242, R243, R244, R245: JMP, JSR, RTS, RTI, BRK, NOP. Every row of each rule: opcode, mode, length, ROM word, the record emitted and the step. -/
def Obligations.JumpReturnBreakRows : Prop :=
  ∀ (w : Word),
    DecodesFrom .JMP 28 [0x4C, 0x6C] ∧
    RowHolds (.jmpAbs w) 0x4C 0x717 .JMP .ABS (.u16 w) ∧
    RowHolds (.jmpInd w) 0x6C 0x723 .JMP .IND (.u16 w) ∧
    DecodesFrom .JSR 29 [0x20] ∧
    RowHolds (.jsrAbs w) 0x20 0x757 .JSR .ABS (.u16 w) ∧
    DecodesFrom .RTS 43 [0x60] ∧
    RowHolds .rts 0x60 0xAF1 .RTS .IMP .absent ∧
    DecodesFrom .RTI 42 [0x40] ∧
    RowHolds .rti 0x40 0xAB1 .RTI .IMP .absent ∧
    DecodesFrom .BRK 11 [0x00] ∧
    RowHolds .brk 0x00 0x2F1 .BRK .IMP .absent ∧
    DecodesFrom .NOP 34 [0xEA] ∧
    FallBack [0x1A, 0x3A, 0x80] ∧
    RowHolds .nop 0xEA 0x8B1 .NOP .IMP .absent

/-- R246, R247, R248, R249, R250, R251, R252, R253: BCC, BCS, BEQ, BMI, BNE, BPL, BVC, BVS. Every row of each rule: opcode, mode, length, ROM word, the record emitted and the step. -/
def Obligations.BranchRows : Prop :=
  ∀ (v : Byte),
    DecodesFrom .BCC 4 [0x90] ∧
    RowHolds (.bccRel v) 0x90 0x136 .BCC .REL (.u8 v) ∧
    DecodesFrom .BCS 5 [0xB0] ∧
    RowHolds (.bcsRel v) 0xB0 0x176 .BCS .REL (.u8 v) ∧
    DecodesFrom .BEQ 6 [0xF0] ∧
    RowHolds (.beqRel v) 0xF0 0x1B6 .BEQ .REL (.u8 v) ∧
    DecodesFrom .BMI 8 [0x30] ∧
    RowHolds (.bmiRel v) 0x30 0x236 .BMI .REL (.u8 v) ∧
    DecodesFrom .BNE 9 [0xD0] ∧
    RowHolds (.bneRel v) 0xD0 0x276 .BNE .REL (.u8 v) ∧
    DecodesFrom .BPL 10 [0x10] ∧
    RowHolds (.bplRel v) 0x10 0x2B6 .BPL .REL (.u8 v) ∧
    DecodesFrom .BVC 12 [0x50] ∧
    RowHolds (.bvcRel v) 0x50 0x336 .BVC .REL (.u8 v) ∧
    DecodesFrom .BVS 13 [0x70] ∧
    RowHolds (.bvsRel v) 0x70 0x376 .BVS .REL (.u8 v)

/-- R254, R255, R256, R257, R258, R259, R260: CLC, CLD, CLI, CLV, SEC, SED, SEI. Every row of each rule: opcode, mode, length, ROM word, the record emitted and the step. -/
def Obligations.FlagInstructionRows : Prop :=
    DecodesFrom .CLC 14 [0x18] ∧
    RowHolds .clc 0x18 0x3B1 .CLC .IMP .absent ∧
    DecodesFrom .CLD 15 [0xD8] ∧
    RowHolds .cld 0xD8 0x3F1 .CLD .IMP .absent ∧
    DecodesFrom .CLI 16 [0x58] ∧
    RowHolds .cli 0x58 0x431 .CLI .IMP .absent ∧
    DecodesFrom .CLV 17 [0xB8] ∧
    RowHolds .clv 0xB8 0x471 .CLV .IMP .absent ∧
    DecodesFrom .SEC 45 [0x38] ∧
    RowHolds .sec 0x38 0xB71 .SEC .IMP .absent ∧
    DecodesFrom .SED 46 [0xF8] ∧
    RowHolds .sed 0xF8 0xBB1 .SED .IMP .absent ∧
    DecodesFrom .SEI 47 [0x78] ∧
    RowHolds .sei 0x78 0xBF1 .SEI .IMP .absent

/-- R172, R279: the 105 undocumented bytes take the fallback entry; its record is emitted and the walk goes on one byte
further; it never raises. -/
def Obligations.UnknownBytesFallBack : Prop :=
  (∀ b : Byte, undocumented.contains b.toNat = true ↔ (rom b).mn = .unknown) ∧
  undocumented.length = 105 ∧ undocumented.Nodup ∧
  (∀ b : Byte, undocumented.contains b.toNat = true → RowHolds (.unknown b) b 0x001 .unknown .unknown .absent) ∧
  ∀ (b : Byte) (s t : State), exec (.unknown b) s = .next t → t.st = s.st ∧ t.phase = s.phase

/-! ## Encoding -/

/-- Decoding an encoded well-formed instruction, whatever bytes follow, gives it back and leaves those bytes. -/
def Obligations.DecodeEncodeRoundTrip : Prop :=
  ∀ (i : Instr) (rest : List Byte), i.wf = true → decode (encode i ++ rest) = .ok i rest

/-- What the decoder reads is well formed, and its encoding is exactly the bytes consumed. -/
def Obligations.EncodeDecodeConsumes : Prop :=
  ∀ (bytes rest : List Byte) (i : Instr), decode bytes = .ok i rest → i.wf = true ∧ encode i ++ rest = bytes

/-- R97: the length is the ROM's, known from the opcode byte alone; a string shorter than that is rejected by name, no
other nonempty string is. -/
def Obligations.DecodeLengthByRom : Prop :=
  ∀ (b : Byte) (rest : List Byte),
    (rest.length + 1 < (rom b).len → decode (b :: rest) = .reject (.truncated b (rom b).len (rest.length + 1))) ∧
    ((rom b).len ≤ rest.length + 1 →
      ∃ i r, decode (b :: rest) = .ok i r ∧ i.opcode = b ∧ i.length = (rom b).len ∧
        r.length + (rom b).len = rest.length + 1 ∧
        i.operand = operandOf (rom b).len (rest.getD 0 0#8) (rest.getD 1 0#8))

/-- A few words written out bit by bit from the rules decode to the instructions they stand for: the two rows NSFT states,
and one or two of each family. -/
def Obligations.SpelledWordsDecode : Prop :=
  decode [0b10101001#8, 0b01000010#8] = .ok (.ldaImm 0x42#8) [] ∧
  decode [0b01001100#8, 0b00000000#8, 0b10000000#8] = .ok (.jmpAbs 0x8000#16) [] ∧
  decode [0b01110001#8, 0b11111110#8] = .ok (.adcIzy 0xFE#8) [] ∧
  decode [0b00011110#8, 0b11111111#8, 0b00000001#8] = .ok (.aslAbx 0x01FF#16) [] ∧
  decode [0b01101010#8] = .ok .rorAcc [] ∧
  decode [0b10010110#8, 0b00010000#8] = .ok (.stxZpy 0x10#8) [] ∧
  decode [0b01101100#8, 0b11111100#8, 0b11111111#8] = .ok (.jmpInd 0xFFFC#16) [] ∧
  decode [0b11010000#8, 0b11111101#8] = .ok (.bneRel 0xFD#8) [] ∧
  decode [0b01111000#8] = .ok .sei [] ∧
  decode [0b00000010#8, 0b10101001#8] = .ok (.unknown 0x02#8) [0xA9#8] ∧
  decode [0b00100000#8, 0b00000000#8] = .reject (.truncated 0x20#8 3 2)

/-- R173, R174: in every ROM entry the mode fixes the length, by the map of R173, and it is 1, 2 or 3. -/
def Obligations.RomEntriesConsistent : Prop :=
  (∀ b : Byte, (rom b).len = (rom b).mode.length ∧ 1 ≤ (rom b).len ∧ (rom b).len ≤ 3) ∧
  (∀ m : Mode, m.length = 1 ↔ m = .ACC ∨ m = .IMP ∨ m = .unknown) ∧
  (∀ m : Mode, m.length = 2 ↔ m = .IMM ∨ m = .ZP ∨ m = .ZPX ∨ m = .ZPY ∨ m = .IZX ∨ m = .IZY ∨ m = .REL) ∧
  (∀ m : Mode, m.length = 3 ↔ m = .ABS ∨ m = .ABX ∨ m = .ABY ∨ m = .IND)

/-- R181: every opcode byte has one entry (the ROM is a function); 151 bytes have an explicit one, no two of these the same
(mnemonic, mode) pair, and the other 105 share the fallback's triple, which no explicit entry has. -/
def Obligations.RomPairsUnique : Prop :=
  let explicit := (List.range 256).filter fun n => (rom (BitVec.ofNat 8 n)).mn ≠ .unknown
  explicit.length = 151 ∧
  (∀ b : Byte, b.toNat ∉ explicit → rom b = ⟨.unknown, .unknown, 1⟩) ∧
  (∀ b : Byte, b.toNat ∈ explicit → (rom b).mode ≠ .unknown) ∧
  (∀ b c : Byte, b.toNat ∈ explicit → (rom b).mn = (rom c).mn → (rom b).mode = (rom c).mode → b = c)

/-- The opcode map of R106 and the ROM words of R107 are the same table: the map's instruction for a byte has that opcode
byte and the words' length and operand; the record its meaning emits, in every walk in which it fits, has the mnemonic, mode
and length that pack to the stored word (R105), and so does the ROM's triple. -/
def Obligations.OpcodeMapAgreesWithRom : Prop :=
  ∀ b b1 b2 : Byte,
    (instrOf b b1 b2).opcode = b ∧ (instrOf b b1 b2).wf = true ∧
    (instrOf b b1 b2).length = (rom b).len ∧ (instrOf b b1 b2).operand = operandOf (rom b).len b1 b2 ∧
    (rom b).pack = romWord b ∧
    ∀ (s : State) (off high : Nat), s.runningAt off high → off + (rom b).len ≤ high →
      ∃ t r, exec (instrOf b b1 b2) s = .next t ∧ t.ir = some r ∧ r.opcode = b ∧
        RomEntry.pack ⟨r.mn, r.mode, r.len⟩ = romWord b

/-! ## The walk's step -/

/-- A step of a running walk runs the decoded instruction's meaning, and then only the loop's test. -/
def Obligations.StepRunsDecoded : Prop :=
  ∀ (s : State) (off high : Nat) (i : Instr) (rest : List Byte),
    s.host.reset = false → s.runningAt off high → decode (fetchWindow s.input.code off high) = .ok i rest →
    step s = mapNext State.finishIfDone (exec i s)

/-- R274, R275: one step decodes exactly one instruction: the ROM's reading of the byte at `DIS.off`. If it fits, exactly one
record is emitted, with no operand, the next byte, or the next two bytes low byte first, as the length says, and
`DIS.off` advances by the length. If it passes `high`, `TruncatedInstruction` is raised instead. -/
def Obligations.StepEmitsRomRecord : Prop :=
  ∀ (s : State) (off high : Nat) (b : Byte),
    s.host.reset = false → s.runningAt off high → s.input.code.read? off = some b →
    (∀ a, off ≤ a → a < high → (s.input.code.read? a).isSome = true) →
    let len := (rom b).len
    (off + len ≤ high →
      ∃ t r, step s = .next t ∧ t.ir = some r ∧ t.out = s.out ++ [r] ∧
        t.dis = { s.dis with off := some (off + len), count := s.dis.count + 1 } ∧
        r.mn = (rom b).mn ∧ r.mode = (rom b).mode ∧ r.len = len ∧ r.offset = off ∧ r.opcode = b ∧
        (len = 1 → r.operand = .absent) ∧
        (len = 2 → ∃ v, s.input.code.read? (off + 1) = some v ∧ r.operand = .u8 v) ∧
        (len = 3 → ∃ lo hi w, s.input.code.read? (off + 1) = some lo ∧ s.input.code.read? (off + 2) = some hi ∧
          r.operand = .u16 w ∧ w.toNat = lo.toNat + 256 * hi.toNat)) ∧
    (high < off + len →
      ∃ t, step s = .next t ∧ t.st = .truncatedInstruction off b len (high - off) ∧ t.phase = .idle ∧ t.out = s.out)

/-- R277, R311: an instruction that passes `high` raises `TruncatedInstruction(off, opcode, len, high - off)`; the command
ends and no record is emitted. `DIS.off` keeps the offset of the failing instruction, `DIS.count` the number emitted, `IR` the
last record and the emitted records stand; `TR.present = 0`, whichever command the step is of, and the other `TR` registers
hold their values, as do `H`, the cursor and the buffers. -/
def Obligations.TruncatedInstructionRaised : Prop :=
  ∀ (s : State) (off high : Nat) (b : Byte),
    s.host.reset = false → s.runningAt off high → s.input.code.read? off = some b → high < off + (rom b).len →
    (high - off = 1 ∨ high - off = 2) ∧ high - off < (rom b).len ∧
    ∃ t, step s = .next t ∧ t.st = .truncatedInstruction off b (rom b).len (high - off) ∧ t.phase = .idle ∧
      t.job = .noCommand ∧ t.dis = s.dis ∧ t.ir = s.ir ∧ t.out = s.out ∧
      t.tr = { s.tr with present := false } ∧ t.hdr = s.hdr ∧ t.cur = s.cur ∧ t.input = s.input ∧ t.host = s.host

/-- Where an instruction's meaning traps: it raises `TruncatedInstruction` exactly when it passes `high`, with the effects of
`State.raiseTruncated` (R277, R311); a length-1 instruction never does. Where it fits it emits its record and leaves `ST` and
`PHASE`, whatever the instruction. -/
def Obligations.MeaningRaisesWhenTruncated : Prop :=
  ∀ (i : Instr) (s : State) (off high : Nat), s.runningAt off high →
    (high < off + i.length →
      2 ≤ i.length ∧ exec i s = .next (s.raiseTruncated off i.opcode i.length (high - off))) ∧
    (off + i.length ≤ high →
      ∃ t r, exec i s = .next t ∧ t.st = s.st ∧ t.phase = s.phase ∧ t.out = s.out ++ [r])

/-- Every meaning completes where a step exists and the instruction fits: one statement for all constructors, over the
ROM's triple. -/
def Obligations.MeaningCompletesWhenFits : Prop :=
  ∀ (i : Instr) (s : State) (off high : Nat), i.wf = true → s.runningAt off high → off + i.length ≤ high →
    exec i s = .next (s.commit
      { mn := (rom i.opcode).mn, mode := (rom i.opcode).mode, len := i.length
        operand := i.operand, offset := off, opcode := i.opcode })

/-- What a decoded instruction leaves unchanged, for every constructor: the cursor, `H`, the range and the base, the
configuration, every byte of both buffers, what the host does next. Either it emits one record, moves `DIS.off` by
its length and leaves `ST`, `PHASE` and `TR`; or it raises, clears `TR.present` (R311) and leaves the rest of `TR`, `IR`, the
stream and all of `DIS`. -/
def Obligations.InstructionFrame : Prop :=
  ∀ (i : Instr) (s t : State), exec i s = .next t →
    t.cur = s.cur ∧ t.hdr = s.hdr ∧ t.host = s.host ∧ t.input.cfg = s.input.cfg ∧
    (∀ a, t.input.buf.read? a = s.input.buf.read? a) ∧ (∀ a, t.input.code.read? a = s.input.code.read? a) ∧
    t.dis.low = s.dis.low ∧ t.dis.high = s.dis.high ∧ t.dis.base = s.dis.base ∧
    ∃ off, s.dis.off = some off ∧
      ((t.st = s.st ∧ t.phase = s.phase ∧ t.job = s.job ∧ t.tr = s.tr ∧
          t.dis.off = some (off + i.length) ∧ t.dis.count = s.dis.count + 1 ∧ ∃ r, t.ir = some r ∧ t.out = s.out ++ [r]) ∨
       (t.st = .truncatedInstruction off i.opcode i.length ((s.dis.high.getD 0) - off) ∧ t.phase = .idle ∧
          t.tr = { s.tr with present := false } ∧ t.dis = s.dis ∧ t.ir = s.ir ∧ t.out = s.out))

/-- R278: whatever is decoded, a jump, a call, a branch, a return or BRK, the next offset is `off + len` while the walk
goes on, and only the end of the range or an error ends it. -/
def Obligations.LinearSweepNeverFollows : Prop :=
  ∀ (s t : State) (off high : Nat) (b : Byte),
    s.host.reset = false → s.runningAt off high → s.input.code.read? off = some b → step s = .next t →
    (t.phase = .disRun → t.runningAt (off + (rom b).len) high) ∧
    (t.phase = .idle → (t.dis.off = some high ∧ off + (rom b).len = high ∧ t.st = .ok) ∨
      (high < off + (rom b).len ∧ ∃ a, t.st = .truncatedInstruction off b (rom b).len a))

/-- R66: a running walk writes no memory: both buffers read as before at every offset, and the configuration and what the
host does next are unchanged. -/
def Obligations.WalkWritesNoMemory : Prop :=
  ∀ s t : State, s.host.reset = false → s.phase = .disRun → step s = .next t →
    (∀ a, t.input.buf.read? a = s.input.buf.read? a) ∧ (∀ a, t.input.code.read? a = s.input.code.read? a) ∧
    t.input.cfg = s.input.cfg ∧ t.host = s.host

/-- The base is for reporting only (R30, R282): a step with another base does the same, base apart. -/
def Obligations.BaseDoesNotMatter : Prop :=
  ∀ (s : State) (base : Option Word), s.host.reset = false → s.phase = .disRun →
    step { s with dis := { s.dis with base } } = mapNext (fun t => { t with dis := { t.dis with base } }) (step s)

/-- Locality (R283 (e), (f)): a step with another code buffer that reads alike on the instruction's window inside
`[off, high)` does the same, the buffer apart. -/
def Obligations.BytesOutsideRangeDoNotMatter : Prop :=
  ∀ (s : State) (off high : Nat) (code : Memory), s.host.reset = false → s.runningAt off high →
    (∀ a, off ≤ a → a < high → a < off + 3 → code.read? a = s.input.code.read? a) →
    step { s with input := { s.input with code } } =
      mapNext (fun t => { t with input := { t.input with code } }) (step s)

/-! ## The walk as a function -/

/-- R284: function and steps agree. Running the step from a running walk reaches, within `high - off` steps, the state in which
the records of the pure sweep have been emitted in order and `ST` is its status. `TR.present` is 0 after an error (R311); after
`OK` it is 1 if it was or if the walk is that of `analyze` (R291). That `IR` keeps an earlier record while none is emitted
is the model's reading (log 27). -/
def Obligations.WalkRefinesSweep : Prop :=
  ∀ (s : State) (off high : Nat), s.host.reset = false → s.runningAt off high → s.input.code.wf = true →
    high ≤ s.input.code.size →
    let res := sweepRange s.input.code.bytes off high
    ∃ k t, k ≤ high - off ∧ Sys2Proof.core.run k s = .next t ∧ t.phase = .idle ∧ t.job = .noCommand ∧
      t.st = res.2 ∧ t.out = s.out ++ res.1 ∧ t.dis.count = s.dis.count + res.1.length ∧
      t.ir = (List.getLast? res.1).or s.ir ∧ (res.2 = .ok → t.dis.off = some high) ∧
      (∀ o b l a, res.2 = .truncatedInstruction o b l a → t.dis.off = some o) ∧
      (t.tr.present = true ↔ res.2 = .ok ∧ (s.tr.present = true ∨ s.job = .analyze)) ∧
      t.tr = { s.tr with present := t.tr.present } ∧
      t.hdr = s.hdr ∧ t.input = s.input ∧ t.host = s.host

/-- R283 (b), (c), (d): the sweep covers its range exactly. On `OK` the records partition `[low, high)`, their lengths sum to
`high - low` and their number is between a third of the bytes, rounded up, and all of them; the only other end is
`TruncatedInstruction` at `off`, where they partition `[low, off)` and 1 or 2 bytes remain, fewer than its length. -/
def Obligations.SweepCoversExactly : Prop :=
  ∀ (code : List Byte) (low high : Nat), low ≤ high → high ≤ code.length →
    let res := sweepRange code low high
    (∀ r ∈ res.1, r.wf) ∧
    ((res.2 = .ok ∧ tiles low res.1 high ∧ totalLen res.1 = high - low ∧
        (high - low + 2) / 3 ≤ res.1.length ∧ res.1.length ≤ high - low) ∨
     (∃ off b len, res.2 = .truncatedInstruction off b len (high - off) ∧ tiles low res.1 off ∧
        totalLen res.1 = off - low ∧ off < high ∧ (high - off = 1 ∨ high - off = 2) ∧ high - off < len ∧
        code[off]? = some b ∧ len = (rom b).len))

/-! ## Commands -/

/-- R270, R347: `disassemble` from acceptance to end, for every range whose `high` is in the buffer: within `1 + (high - low)`
steps its stream and status are the sweep's, the command's arguments are in the registers, and the host's next command is
still to come. A walk that raises clears `TR.present` (R311); otherwise `TR` is not written (R40). The model's choices in it:
the host's queue (log 1) and the stream kept in the state (log 9). -/
def Obligations.DisassembleCommandWhole : Prop :=
  ∀ (s : State) (cfg : Config) (code : List Byte) (base : Word) (low high : Option Nat) (rs : List Request),
    s.takes ⟨cfg, .disassemble code base low high⟩ rs → cfg.accepts code.length →
    high.getD code.length ≤ code.length →
    let lo := low.getD 0
    let hi := high.getD code.length
    let res := sweepRange code lo hi
    ∃ k t, k ≤ 1 + (hi - lo) ∧ Sys2Proof.core.run k s = .next t ∧ t.phase = .idle ∧ t.job = .noCommand ∧
      t.st = res.2 ∧ t.out = res.1 ∧ t.dis.count = res.1.length ∧ t.dis.low = some lo ∧ t.dis.high = some hi ∧
      t.dis.base = some base ∧ t.cur = s.cur ∧ t.hdr = s.hdr ∧ t.host.requests = rs ∧
      (res.2 = .ok → t.tr = s.tr) ∧ (res.2 ≠ .ok → t.tr = { s.tr with present := false })

/-- R272: an accepted command over a nonempty range starts the walk at the low offset; the first record is still to come.
That `IR` (log 27) and `ST` (log 28) keep their values until then is the model's reading, as is the empty stream (log 9). -/
def Obligations.DisassembleAcceptedStarts : Prop :=
  ∀ (s : State) (cfg : Config) (code : List Byte) (base : Word) (low high : Option Nat) (rs : List Request),
    s.takes ⟨cfg, .disassemble code base low high⟩ rs → cfg.accepts code.length →
    high.getD code.length ≤ code.length → low.getD 0 < high.getD code.length →
    ∃ t, step s = .next t ∧ t.runningAt (low.getD 0) (high.getD code.length) ∧ t.job = .disassemble ∧
      t.dis.count = 0 ∧ t.dis.base = some base ∧ t.dis.low = some (low.getD 0) ∧ t.out = [] ∧
      t.input.code = Memory.ofBytes code ∧ t.st = s.st ∧ t.ir = s.ir ∧ t.hdr = s.hdr ∧ t.tr = s.tr ∧ t.cur = s.cur

/-- R271: a `high` beyond the buffer raises `OutOfBounds(low, high, L)` at acceptance, before anything is emitted; `low >= high`
emits nothing and ends `OK` with `DIS.off = low`. -/
def Obligations.DisassembleRangeChecked : Prop :=
  ∀ (s : State) (cfg : Config) (code : List Byte) (base : Word) (low high : Option Nat) (rs : List Request),
    s.takes ⟨cfg, .disassemble code base low high⟩ rs → cfg.accepts code.length →
    (code.length < high.getD code.length →
      ∃ t, step s = .next t ∧ t.phase = .idle ∧ t.out = [] ∧
        t.st = .outOfBounds (low.getD 0) (high.getD code.length) code.length) ∧
    (high.getD code.length ≤ code.length → high.getD code.length ≤ low.getD 0 →
      ∃ t, step s = .next t ∧ t.phase = .idle ∧ t.out = [] ∧ t.st = .ok ∧ t.dis.off = some (low.getD 0) ∧
        t.dis.count = 0)

/-- The model's reading of an out-of-range `disassemble` (log 7): it writes no register of `DIS`. That it leaves `IR` is log 27,
that the code buffer of the last command stays is log 10, that it leaves `TR` is log 26; `H` and `CUR` it does not write (R40). -/
def Obligations.OutOfRangeLeavesDis : Prop :=
  ∀ (s t : State) (cfg : Config) (code : List Byte) (base : Word) (low high : Option Nat) (rs : List Request),
    s.takes ⟨cfg, .disassemble code base low high⟩ rs → cfg.accepts code.length →
    code.length < high.getD code.length → step s = .next t →
    t.dis = s.dis ∧ t.ir = s.ir ∧ t.hdr = s.hdr ∧ t.tr = s.tr ∧ t.cur = s.cur ∧ t.input.code = s.input.code

/-- R142 to R153: the fields of the header record that are read as they stand, each from its bytes of the schema, by one
atomic step that leaves `CUR.pos = 128` and `ST = OK`. -/
def Obligations.DecodeHeaderFields : Prop :=
  ∀ (s : State) (cfg : Config) (b : List Byte) (rs : List Request),
    s.takes ⟨cfg, .decodeHeader b⟩ rs → (∀ max, cfg.maxBufLen = some max → b.length ≤ max) →
    (cfg.strictMagic = false ∨ b.take 5 = cfg.magic.toList) → 128 ≤ b.length →
    let u8 := fun n => b.getD n 0#8
    let u16 := fun n => (b.getD n 0#8).toNat + 256 * (b.getD (n + 1) 0#8).toNat
    let isText := fun (n : Nat) (v : List Byte) =>
      (∃ k, (b.drop n).take 32 = v ++ List.replicate k 0#8) ∧ v.getLast? ≠ some 0#8
    ∃ t h, step s = .next t ∧ t.hdr = some h ∧ t.st = .ok ∧ t.cur = some 128 ∧ t.phase = .idle ∧
      h.magic = b.take 5 ∧ h.version = u8 5 ∧ h.totalSongs = u8 6 ∧ h.startingSong = u8 7 ∧
      h.loadAddr.toNat = u16 8 ∧ h.initAddr.toNat = u16 10 ∧ h.playAddr.toNat = u16 12 ∧
      isText 14 h.title ∧ isText 46 h.artist ∧ isText 78 h.copyright ∧
      h.ntscSpeed.toNat = u16 110 ∧ h.bankswitchInit = (b.drop 112).take 8 ∧ h.palSpeed.toNat = u16 120

/-- R155 to R157, with the two bits of R154: the flags byte at offset 122 and the expansion byte at offset 123, bit by bit, and the two derived
fields, with the truth table of R155. -/
def Obligations.DecodeHeaderFlags : Prop :=
  ∀ (s : State) (cfg : Config) (b : List Byte) (rs : List Request) (f e : Byte),
    s.takes ⟨cfg, .decodeHeader b⟩ rs → (∀ max, cfg.maxBufLen = some max → b.length ≤ max) →
    (cfg.strictMagic = false ∨ b.take 5 = cfg.magic.toList) → 128 ≤ b.length → b[122]? = some f → b[123]? = some e →
    ∃ t h, step s = .next t ∧ t.hdr = some h ∧
      (h.palMode = true ↔ f.toNat % 2 = 1) ∧ (h.dualMode = true ↔ f.toNat / 2 % 2 = 1) ∧
      (h.tvStandard = .PAL ↔ h.palMode = true ∧ h.dualMode = false) ∧
      (h.ntscMode = true ↔ h.tvStandard = .NTSC) ∧
      (h.vrc6 = true ↔ e.toNat % 2 = 1) ∧ (h.vrc7 = true ↔ e.toNat / 2 % 2 = 1) ∧
      (h.fds = true ↔ e.toNat / 4 % 2 = 1) ∧ (h.mmc5 = true ↔ e.toNat / 8 % 2 = 1) ∧
      (h.namco106 = true ↔ e.toNat / 16 % 2 = 1) ∧ (h.fme07 = true ↔ e.toNat / 32 % 2 = 1)

/-- R159, R162: a header of at least 128 bytes is marked valid exactly when its first five bytes are `MAGIC`; without strict
validation a bad magic still ends `OK`, with it the command ends with `InvalidMagic` of the bytes read and no record. -/
def Obligations.MagicChecked : Prop :=
  ∀ (s : State) (cfg : Config) (b : List Byte) (rs : List Request),
    s.takes ⟨cfg, .decodeHeader b⟩ rs → (∀ max, cfg.maxBufLen = some max → b.length ≤ max) → 128 ≤ b.length →
    (cfg.strictMagic = true → b.take 5 ≠ cfg.magic.toList →
      ∃ t, step s = .next t ∧ t.hdr = none ∧ t.st = .invalidMagic (b.take 5) ∧ t.phase = .idle) ∧
    (cfg.strictMagic = false ∨ b.take 5 = cfg.magic.toList →
      ∃ t h, step s = .next t ∧ t.st = .ok ∧ t.hdr = some h ∧ (h.valid = true ↔ b.take 5 = cfg.magic.toList))

/-- R160: fewer than 128 bytes raise `TruncatedInput(len)` before the cursor reads anything; no field is decoded. -/
def Obligations.ShortHeaderTruncated : Prop :=
  ∀ (s : State) (cfg : Config) (b : List Byte) (rs : List Request),
    s.takes ⟨cfg, .decodeHeader b⟩ rs → (∀ max, cfg.maxBufLen = some max → b.length ≤ max) → b.length < 128 →
    ∃ t, step s = .next t ∧ t.st = .truncatedInput b.length ∧ t.hdr = none ∧ t.hPresent = false ∧
      t.cur = s.cur ∧ t.input.buf = s.input.buf ∧ t.phase = .idle

/-- R161, R93, R158: the record does not depend on the reserved bits of the flags and expansion bytes, on the four reserved
bytes, or on anything from offset 128 on; the reserved bytes are counted, so the position ends at 128. -/
def Obligations.ReservedHeaderBitsIgnored : Prop :=
  ∀ (s : State) (cfg : Config) (b d : List Byte), 128 ≤ b.length → 128 ≤ d.length →
    (∀ n, n < 122 → b[n]? = d[n]?) →
    (∀ n, n < 2 → bitOf (b.getD 122 0#8) n = bitOf (d.getD 122 0#8) n) →
    (∀ n, n < 6 → bitOf (b.getD 123 0#8) n = bitOf (d.getD 123 0#8) n) →
    (decodeHeader cfg b s).hdr = (decodeHeader cfg d s).hdr ∧ (decodeHeader cfg b s).st = (decodeHeader cfg d s).st ∧
    (decodeHeader cfg b s).cur = some 128 ∧ (decodeHeader cfg d s).cur = some 128

/-- R164 (c): encoding a header record with the layout of R90 gives 128 bytes, and decoding them reproduces the record;
`valid` is what the magic check says. -/
def Obligations.HeaderRoundTrip : Prop :=
  ∀ (s : State) (cfg : Config) (h : Header), h.wf → h.valid = magicValid cfg h.magic →
    (cfg.strictMagic = false ∨ h.valid = true) →
    (encodeHeader h).length = 128 ∧ (decodeHeader cfg (encodeHeader h) s).hdr = some h ∧
    (decodeHeader cfg (encodeHeader h) s).st = .ok

/-- R301, R302: the cursor's `OutOfBounds` is never what the header stage raises, on any input. -/
def Obligations.HeaderNeverOutOfBounds : Prop :=
  ∀ (s : State) (cfg : Config) (b : List Byte) (first second len : Nat),
    (decodeHeader cfg b s).st ≠ .outOfBounds first second len

/-- R292 to R297: the first step of `analyze` decodes the header and computes the tune-record fields from its load address and
the unclipped code size, whether or not disassembly is deferred. The bytes for DIS (or, deferred, the record's raw code)
are the remainder, clipped only as `CLIP_TO_64K` says. That the header stage is a step of its own is the model's reading
(log 6). -/
def Obligations.AnalyzeComputesTuneFields : Prop :=
  ∀ (s : State) (cfg : Config) (file : List Byte) (name : String) (rs : List Request),
    s.takes ⟨cfg, .analyze file name⟩ rs → cfg.accepts file.length → 128 ≤ file.length →
    (cfg.strictMagic = false ∨ file.take 5 = cfg.magic.toList) →
    let load := (file.getD 8 0#8).toNat + 256 * (file.getD 9 0#8).toNat
    let size := file.length - 128
    let cut := cfg.clipTo64k = true ∧ 0x10000 - load < size
    ∃ t h dcode, step s = .next t ∧ t.hdr = some h ∧ h.loadAddr.toNat = load ∧
      t.tr.name = some name ∧ t.tr.codeSize = some size ∧
      t.tr.codeEmpty = some (decide (size = 0)) ∧
      (size = 0 → t.tr.lastCodeAddr = none) ∧ (0 < size → t.tr.lastCodeAddr = some (load + size - 1)) ∧
      t.tr.addrOverflow = some (decide (0x10000 < load + size)) ∧
      (cut → t.tr.clipped = some true ∧ t.tr.dropped = some (size - (0x10000 - load)) ∧
        dcode = (file.drop 128).take (0x10000 - load)) ∧
      (¬ cut → t.tr.clipped = some false ∧ t.tr.dropped = some 0 ∧ dcode = file.drop 128) ∧
      t.tr.deferred = some cfg.deferDisasm ∧ t.phase = .idle ∧
      (cfg.deferDisasm = false → t.tr.present = false ∧ t.tr.rawCode = none ∧ t.input.code.bytes = dcode ∧
        t.job = .analyzeDue) ∧
      (cfg.deferDisasm = true → t.tr.present = true ∧ t.tr.rawCode = some dcode ∧ t.job = .noCommand)

/-- R296: with `DEFER_DISASM = 1` `analyze` ends in one step, `OK`, with the raw (clipped) code bytes in the record and no
walk. That this is one step (R346 says only that `analyze` is a sequence of steps) is the model's reading (log 6), as is
that `IR` and `DIS` keep the values of an earlier command (log 27, R40). -/
def Obligations.AnalyzeDeferredKeepsBytes : Prop :=
  ∀ (s : State) (cfg : Config) (file : List Byte) (name : String) (rs : List Request),
    s.takes ⟨cfg, .analyze file name⟩ rs → cfg.accepts file.length → 128 ≤ file.length →
    (cfg.strictMagic = false ∨ file.take 5 = cfg.magic.toList) → cfg.deferDisasm = true →
    ∃ t h, step s = .next t ∧ t.hdr = some h ∧ t.tr.present = true ∧ t.tr.deferred = some true ∧
      t.tr.rawCode = some (clipCode cfg h.loadAddr (file.drop 128)) ∧ t.st = .ok ∧ t.phase = .idle ∧
      t.job = .noCommand ∧ t.out = [] ∧ t.dis = s.dis ∧ t.ir = s.ir

/-- R298: the first error of `analyze` ends it: a short file raises `TruncatedInput`, then under strict validation a bad magic
raises `InvalidMagic`; either way there is no header, no tune record and no walk. That the short file leaves no header is
the model's reading (log 8). -/
def Obligations.AnalyzeHeaderErrorsEndIt : Prop :=
  ∀ (s : State) (cfg : Config) (file : List Byte) (name : String) (rs : List Request),
    s.takes ⟨cfg, .analyze file name⟩ rs → cfg.accepts file.length →
    (file.length < 128 →
      ∃ t, step s = .next t ∧ t.st = .truncatedInput file.length ∧ t.hdr = none ∧ t.tr.present = false ∧
        t.job = .noCommand ∧ t.phase = .idle ∧ t.out = []) ∧
    (128 ≤ file.length → cfg.strictMagic = true → file.take 5 ≠ cfg.magic.toList →
      ∃ t, step s = .next t ∧ t.st = .invalidMagic (file.take 5) ∧ t.hdr = none ∧ t.tr.present = false ∧
        t.job = .noCommand ∧ t.phase = .idle ∧ t.out = [])

/-- R290: `analyze` from issue to end is the header stage and then the disassembly of the (clipped) remainder at the header's
load address: within `2 + len(dcode)` steps the stream and the status are the sweep's, and the tune record is present
exactly when it ended `OK`. The model's choices in it: the host's queue (log 1), the steps of `analyze` (log 6) and the stream
kept in the state (log 9). -/
def Obligations.AnalyzeCommandWhole : Prop :=
  ∀ (s : State) (cfg : Config) (file : List Byte) (name : String) (rs : List Request),
    s.takes ⟨cfg, .analyze file name⟩ rs → cfg.accepts file.length → 128 ≤ file.length →
    (cfg.strictMagic = false ∨ file.take 5 = cfg.magic.toList) → cfg.deferDisasm = false →
    let load := wordLE (file.getD 8 0#8) (file.getD 9 0#8)
    let dcode := clipCode cfg load (file.drop 128)
    let res := sweepRange dcode 0 dcode.length
    ∃ k t h, k ≤ 2 + dcode.length ∧ Sys2Proof.core.run k s = .next t ∧ t.phase = .idle ∧ t.job = .noCommand ∧
      t.hdr = some h ∧ h.loadAddr = load ∧ t.st = res.2 ∧ t.out = res.1 ∧ t.dis.base = some load ∧
      t.dis.low = some 0 ∧ t.dis.high = some dcode.length ∧ (t.tr.present = true ↔ res.2 = .ok) ∧
      t.tr.name = some name ∧ t.tr.codeSize = some (file.length - 128) ∧ t.host.requests = rs

/-- R286 and U2, U16, U17: configurations that are named and not admitted are refused by name before anything runs, for the
commands that read them; a buffer longer than `MAX_BUF_LEN` is refused, never cut. Which commands are refused, and when, is
the model's reading (log 11, log 12). -/
def Obligations.InadmissibleRequestsRefused : Prop :=
  ∀ (s : State) (cfg : Config) (rs : List Request) (bytes : List Byte) (base : Word) (low high : Option Nat)
    (name : String) (max : Nat),
    (∀ cmd, (cmd = .disassemble bytes base low high ∨ cmd = .analyze bytes name) → s.takes ⟨cfg, cmd⟩ rs →
      (cfg.truncPolicy = .emitPartial → step s = .refused .emitPartial) ∧
      (cfg.truncPolicy = .raise → cfg.brkLen ≠ 1 → step s = .refused (.brkLength cfg.brkLen)) ∧
      (cfg.admitted = true → cfg.maxBufLen = some max → max < bytes.length →
        step s = .refused (.bufferTooLong bytes.length max))) ∧
    (s.takes ⟨cfg, .decodeHeader bytes⟩ rs → cfg.maxBufLen = some max → max < bytes.length →
      step s = .refused (.bufferTooLong bytes.length max))

/-- R40: which command writes which register group: `decode_header` leaves `DIS`, `IR`, `TR` and `PHASE`; the acceptance of
`disassemble` and the steps of its walk leave `CUR`, `H` and `TR`, but for `TR.present`, which a step that raises clears
(R311). -/
def Obligations.GroupsNotWrittenKeep : Prop :=
  (∀ (s t : State) (cfg : Config) (b : List Byte) (rs : List Request),
    s.takes ⟨cfg, .decodeHeader b⟩ rs → step s = .next t →
    t.dis = s.dis ∧ t.ir = s.ir ∧ t.tr = s.tr ∧ t.phase = s.phase ∧ t.host.requests = rs) ∧
  (∀ (s t : State) (cfg : Config) (code : List Byte) (base : Word) (low high : Option Nat) (rs : List Request),
    s.takes ⟨cfg, .disassemble code base low high⟩ rs → step s = .next t →
    t.cur = s.cur ∧ t.hdr = s.hdr ∧ t.tr = s.tr ∧ t.host.requests = rs) ∧
  (∀ s t : State, s.host.reset = false → s.phase = .disRun → s.job = .disassemble → step s = .next t →
    t.cur = s.cur ∧ t.hdr = s.hdr ∧ (t.phase = .disRun ∨ t.st = .ok → t.tr = s.tr) ∧
    (t.phase = .idle ∧ t.st ≠ .ok → t.tr = { s.tr with present := false }))

/-- R33: while a walk runs or the disassembly stage of `analyze` is due (log 6), no command is taken: the host's commands
stay as they are. -/
def Obligations.BusyBlockTakesNoCommand : Prop :=
  ∀ s t : State, s.phase = .disRun ∨ s.job = .analyzeDue → step s = .next t → t.host.requests = s.host.requests

/-! ## The cursor -/

/-- R131, R132, R133: in bounds, read raw N, u8 and u16le return the bytes at the position (the 16-bit value is
`B[pos] + 256 * B[pos+1]`) and advance by N, 1 and 2; past the end they raise `OutOfBounds(pos, N, L)` and consume
nothing. -/
def Obligations.CursorReadsInBounds : Prop :=
  ∀ (bs : List Byte) (pos n : Nat),
    let c : Cursor := { buf := Memory.ofBytes bs, pos := pos }
    (pos + n ≤ bs.length → readRaw n c = .ok ((bs.drop pos).take n) { c with pos := pos + n }) ∧
    (bs.length < pos + n → readRaw n c = .error (.outOfBounds pos n bs.length) c) ∧
    (pos + 1 ≤ bs.length → ∃ v, readU8 c = .ok v { c with pos := pos + 1 } ∧ bs[pos]? = some v) ∧
    (bs.length < pos + 1 → readU8 c = .error (.outOfBounds pos 1 bs.length) c) ∧
    (pos + 2 ≤ bs.length → ∃ v lo hi, readU16 c = .ok v { c with pos := pos + 2 } ∧
      bs[pos]? = some lo ∧ bs[pos + 1]? = some hi ∧ v.toNat = lo.toNat + 256 * hi.toNat) ∧
    (bs.length < pos + 2 → readU16 c = .error (.outOfBounds pos 2 bs.length) c)

/-- R134: read text N returns the N bytes without their trailing nulls and no others: the bytes read are the value
followed by nulls, and the value does not end in one; the position advances by N. Past the end it raises
`OutOfBounds(pos, N, L)` and consumes nothing. -/
def Obligations.CursorTextTrimsTrailingNulls : Prop :=
  ∀ (bs : List Byte) (pos n : Nat),
    let c : Cursor := { buf := Memory.ofBytes bs, pos := pos }
    (pos + n ≤ bs.length →
      ∃ v k, readText n c = .ok v { c with pos := pos + n } ∧
        (bs.drop pos).take n = v ++ List.replicate k 0#8 ∧ v.getLast? ≠ some 0#8) ∧
    (bs.length < pos + n → readText n c = .error (.outOfBounds pos n bs.length) c)

/-- R135, R136: skip advances like a read; an operation that needs `n` bytes raises `OutOfBounds(pos, n, L)` exactly when
`pos + n > L`, and then the cursor is as it was. -/
def Obligations.CursorOutOfBounds : Prop :=
  ∀ (op : CursorOp) (c : Cursor),
    (c.buf.size < c.pos + op.size → op.run c = .error (.outOfBounds c.pos op.size c.buf.size) c) ∧
    (c.pos + op.size ≤ c.buf.size → op.run c = .ok () { c with pos := c.pos + op.size })

/-- R137: after any sequence of successful operations from an attach the position is the sum of their sizes, inside the
buffer; after a failing one it is still inside. -/
def Obligations.CursorPositionLaw : Prop :=
  ∀ (buf : Memory) (ops : List CursorOp),
    match runOps ops (Cursor.attach buf) with
    | .ok _ c => c.pos = (ops.map CursorOp.size).sum ∧ c.pos ≤ buf.size ∧ c.buf = buf
    | .error e c => c.pos ≤ buf.size ∧ c.buf = buf ∧ ∃ n, e = .outOfBounds c.pos n buf.size ∧ buf.size < c.pos + n

/-! ## Errors, reset, reporting -/

/-- R300: the numeric code of each kind. -/
def Obligations.ErrorKindCodes : Prop :=
  ∀ (len off a b n avail : Nat) (opc : Byte) (bs : List Byte),
    Status.code .ok = 0 ∧ Status.code (.truncatedInput len) = 1 ∧ Status.code (.outOfBounds a b n) = 2 ∧
    Status.code (.truncatedInstruction off opc len avail) = 3 ∧ Status.code (.invalidMagic bs) = 4

/-- R45: the reset values, register by register; and reading a register that is `none` is an error, not a zero: a walk
whose `DIS.off` or `DIS.high` is `none` has no step. -/
def Obligations.ResetValues : Prop :=
  (State.reset.phase = .idle ∧ State.reset.st = .ok ∧ State.reset.hPresent = false ∧ State.reset.hdr = none ∧
    State.reset.tr.present = false ∧ State.reset.tr.name = none ∧ State.reset.tr.codeSize = none ∧
    State.reset.tr.lastCodeAddr = none ∧ State.reset.tr.codeEmpty = none ∧
    State.reset.tr.addrOverflow = none ∧ State.reset.tr.clipped = none ∧ State.reset.tr.dropped = none ∧
    State.reset.tr.deferred = none ∧ State.reset.cur = none ∧ State.reset.dis.off = none ∧
    State.reset.dis.low = none ∧ State.reset.dis.high = none ∧ State.reset.dis.base = none ∧
    State.reset.dis.count = 0 ∧ State.reset.ir = none) ∧
  ∀ s : State, s.host.reset = false → s.phase = .disRun → s.dis.off = none ∨ s.dis.high = none →
    step s = .fault .absentRegister

/-- R331: a reset, whatever the block was doing, puts every register at its reset value and abandons the command; the
records already emitted stand, and no further one is emitted. -/
def Obligations.ResetEventClearsRegisters : Prop :=
  ∀ s : State, s.host.reset = true →
    ∃ t, step s = .next t ∧ t.phase = .idle ∧ t.st = .ok ∧ t.hdr = none ∧ t.cur = none ∧ t.ir = none ∧
      t.tr = State.reset.tr ∧ t.dis = State.reset.dis ∧ t.job = .noCommand ∧ t.out = s.out ∧
      t.host.reset = false

/-- R321, R332: an idle block with no command to take changes nothing. That its step exists at all is the model's choice
(log 16). -/
def Obligations.IdleBlockWaits : Prop :=
  ∀ s : State, s.host.reset = false → s.phase = .idle → s.job = .noCommand → s.host.requests = [] → step s = .next s

/-- R31: the reported address is `base + offset` unreduced; its 16-bit view is the sum modulo 65536 and the wrap mark says
whether the two differ. -/
def Obligations.ReportedAddressUnreduced : Prop :=
  ∀ (base : Word) (offset : Nat),
    reportedAddr base offset = base.toNat + offset ∧
    (addr16 (reportedAddr base offset)).toNat = (base.toNat + offset) % 65536 ∧
    (addrWraps (reportedAddr base offset) = true ↔ 65536 ≤ base.toNat + offset)

/-! ## Invariant -/

/-- The reset state meets the invariant. -/
def Obligations.InvariantAtReset : Prop := State.Inv State.reset

/-- Every step keeps the invariant. -/
def Obligations.InvariantKeptByStep : Prop := ∀ s t : State, s.Inv → step s = .next t → t.Inv

/-- From a state that meets the invariant no step faults, and one is refused only for a request the spec does not admit (the
refusals are the model's reading: log 11, log 12). -/
def Obligations.InvariantStepsDoNotStop : Prop :=
  ∀ s : State, s.Inv →
    (∀ f, step s ≠ .fault f) ∧
    (∀ why, step s = .refused why →
      s.phase = .idle ∧ ∃ r rs, s.host.requests = r :: rs ∧
        (r.cfg.admitted = false ∨ ∃ max, r.cfg.maxBufLen = some max ∧
          ∃ bytes : List Byte, max < bytes.length ∧
            (r.cmd = .decodeHeader bytes ∨ (∃ base low high, r.cmd = .disassemble bytes base low high) ∨
              ∃ name, r.cmd = .analyze bytes name)))
end

