-- ==== Sys2Proof/Laws/Memory.lean ====
section
/-! SUPPORT. Buffers: what a loaded byte string reads as, and that every buffer the machine makes has the canonical
form. -/

namespace Sys2Proof.Machine

theorem length_cellsFrom (a : Nat) (bs : List Byte) : (cellsFrom a bs).length = bs.length := by
  induction bs generalizing a with
  | nil => rfl
  | cons b bs ih => simp [cellsFrom, ih]

theorem map_snd_cellsFrom (a : Nat) (bs : List Byte) : (cellsFrom a bs).map Prod.snd = bs := by
  induction bs generalizing a with
  | nil => rfl
  | cons b bs ih => simp [cellsFrom, ih]

theorem map_fst_cellsFrom (a : Nat) (bs : List Byte) :
    (cellsFrom a bs).map Prod.fst = List.range' a bs.length := by
  induction bs generalizing a with
  | nil => rfl
  | cons b bs ih => simp [cellsFrom, ih, List.range'_succ]

/-- Cells are determined by their bytes and their first offset. -/
theorem cellsFrom_map_snd (a : Nat) (cs : List Host.Cell) (h : cs.map Prod.fst = List.range' a cs.length) :
    cellsFrom a (cs.map Prod.snd) = cs := by
  induction cs generalizing a with
  | nil => rfl
  | cons c cs ih =>
    simp only [List.map_cons, List.length_cons, List.range'_succ, List.cons.injEq] at h
    simp only [List.map_cons, cellsFrom, ih (a + 1) h.2, List.cons.injEq, and_true]
    exact Prod.ext h.1.symm rfl

theorem lookup_cellsFrom (a : Nat) (bs : List Byte) (i : Nat) : lookup (cellsFrom a bs) (a + i) = bs[i]? := by
  induction bs generalizing a i with
  | nil => rfl
  | cons b bs ih =>
    cases i with
    | zero => simp [cellsFrom, lookup]
    | succ i =>
      have h := ih (a + 1) i
      rw [show a + 1 + i = a + (i + 1) by omega] at h
      simpa [cellsFrom, lookup] using h

@[simp] theorem Memory.read?_ofBytes (bs : List Byte) (i : Nat) : (Memory.ofBytes bs).read? i = bs[i]? := by
  simpa [Memory.ofBytes, Memory.read?] using lookup_cellsFrom 0 bs i

@[simp] theorem Memory.size_ofBytes (bs : List Byte) : (Memory.ofBytes bs).size = bs.length :=
  length_cellsFrom 0 bs

@[simp] theorem Memory.bytes_ofBytes (bs : List Byte) : (Memory.ofBytes bs).bytes = bs :=
  map_snd_cellsFrom 0 bs

/-- Every loaded buffer has the canonical form. -/
@[simp] theorem Memory.wf_ofBytes (bs : List Byte) : (Memory.ofBytes bs).wf = true := by
  simp [Memory.wf, Memory.ofBytes, map_fst_cellsFrom, length_cellsFrom, List.range_eq_range']

/-- The host's placing of bytes keeps the canonical form. -/
@[simp] theorem Memory.wf_place (m : Memory) (a : Nat) (bs : List Byte) : (m.place a bs).wf = true :=
  Memory.wf_ofBytes _

/-- The buffers of the reset state have the canonical form. -/
theorem Memory.wf_reset : State.reset.input.buf.wf = true ∧ State.reset.input.code.wf = true := ⟨rfl, rfl⟩

/-- A buffer in canonical form is the one its bytes load. -/
theorem Memory.eq_ofBytes {m : Memory} (h : m.wf = true) : m = Memory.ofBytes m.bytes := by
  have h' : m.cells.map Prod.fst = List.range' 0 m.cells.length := by
    simpa [Memory.wf, List.range_eq_range'] using h
  cases m
  exact congrArg Memory.mk (cellsFrom_map_snd 0 _ h').symm

theorem Memory.length_bytes (m : Memory) : m.bytes.length = m.size := by
  simp [Memory.bytes, Memory.size]

/-- What a canonical buffer reads. -/
theorem Memory.read?_of_wf {m : Memory} (h : m.wf = true) (i : Nat) : m.read? i = m.bytes[i]? := by
  rw [Memory.eq_ofBytes h, Memory.read?_ofBytes, Memory.bytes_ofBytes]

/-- An offset holds a byte exactly when it is inside the buffer (R65). -/
theorem Memory.read?_isSome_of_wf {m : Memory} (h : m.wf = true) (i : Nat) : (m.read? i).isSome ↔ i < m.size := by
  rw [Memory.read?_of_wf h, ← Memory.length_bytes]
  simp

/-- `MemRead` of a loaded byte string (R18). -/
@[simp] theorem Memory.slice_ofBytes (bs : List Byte) (a n : Nat) :
    (Memory.ofBytes bs).slice a n = (bs.drop a).take n := by
  induction n generalizing a with
  | zero => simp [Memory.slice]
  | succ n ih =>
    rw [Memory.slice, Memory.read?_ofBytes]
    by_cases h : a < bs.length
    · rw [List.getElem?_eq_getElem h, List.drop_eq_getElem_cons h]
      simp only [ih, List.take_succ_cons]
    · rw [List.getElem?_eq_none (by omega), List.drop_eq_nil_of_le (by omega)]
      simp

theorem Memory.slice_of_wf {m : Memory} (h : m.wf = true) (a n : Nat) : m.slice a n = (m.bytes.drop a).take n := by
  rw [Memory.eq_ofBytes h, Memory.slice_ofBytes, Memory.bytes_ofBytes]

/-- Slices of buffers that read alike are alike. -/
theorem Memory.slice_congr {m k : Memory} {a n : Nat} (h : ∀ i, i < n → m.read? (a + i) = k.read? (a + i)) :
    m.slice a n = k.slice a n := by
  induction n generalizing a with
  | zero => rfl
  | succ n ih =>
    have h0 := h 0 (by omega)
    rw [Nat.add_zero] at h0
    have hs : m.slice (a + 1) n = k.slice (a + 1) n :=
      ih fun i hi => by simpa [Nat.add_assoc, Nat.add_comm 1 i] using h (i + 1) (by omega)
    rw [Memory.slice, Memory.slice, h0, hs]

/-- A longer slice begins with a shorter one. -/
theorem Memory.slice_take (m : Memory) (a : Nat) {n k : Nat} (h : n ≤ k) : (m.slice a k).take n = m.slice a n := by
  induction n generalizing a k with
  | zero => simp [Memory.slice]
  | succ n ih =>
    obtain ⟨k, rfl⟩ : ∃ j, k = j + 1 := ⟨k - 1, by omega⟩
    rw [Memory.slice, Memory.slice]
    cases m.read? a with
    | none => rfl
    | some b => simp [ih (a + 1) (by omega : n ≤ k)]

theorem Memory.length_slice_le (m : Memory) (a n : Nat) : (m.slice a n).length ≤ n := by
  induction n generalizing a with
  | zero => simp [Memory.slice]
  | succ n ih =>
    rw [Memory.slice]
    cases m.read? a with
    | none => simp
    | some b => simpa using ih (a + 1)

end Sys2Proof.Machine
end

