-- ==== Sys2Proof/Laws/Cursor.lean ====
section
/-! SUPPORT. What each cursor operation answers, in bounds and out of bounds. -/

namespace Sys2Proof.Machine

theorem readRaw_ok {c : Cursor} {n : Nat} (h : c.pos + n ≤ c.buf.size) :
    readRaw n c = .ok (c.buf.slice c.pos n) { c with pos := c.pos + n } := by
  simp [readRaw, Nat.not_lt.mpr h]

theorem readRaw_error {c : Cursor} {n : Nat} (h : c.buf.size < c.pos + n) :
    readRaw n c = .error (.outOfBounds c.pos n c.buf.size) c := by
  simp [readRaw, h]

theorem skip_ok {c : Cursor} {n : Nat} (h : c.pos + n ≤ c.buf.size) :
    skip n c = .ok () { c with pos := c.pos + n } := by
  simp [skip, Nat.not_lt.mpr h]

theorem skip_error {c : Cursor} {n : Nat} (h : c.buf.size < c.pos + n) :
    skip n c = .error (.outOfBounds c.pos n c.buf.size) c := by
  simp [skip, h]

/-- A read followed by a pure function of its bytes, the shape of u8, u16le and text. -/
theorem readRaw_bind_pure_ok {α : Type} {c : Cursor} {n : Nat} (f : List Byte → α) (h : c.pos + n ≤ c.buf.size) :
    (readRaw n >>= fun raw => pure (f raw) : CursorM α) c =
      .ok (f (c.buf.slice c.pos n)) { c with pos := c.pos + n } := by
  simp [bind, EStateM.bind, readRaw_ok h, pure, EStateM.pure]

theorem readRaw_bind_pure_error {α : Type} {c : Cursor} {n : Nat} (f : List Byte → α)
    (h : c.buf.size < c.pos + n) :
    (readRaw n >>= fun raw => pure (f raw) : CursorM α) c = .error (.outOfBounds c.pos n c.buf.size) c := by
  simp [bind, EStateM.bind, readRaw_error h]

theorem readU8_ok {c : Cursor} (h : c.pos + 1 ≤ c.buf.size) :
    readU8 c = .ok ((c.buf.slice c.pos 1).getD 0 0#8) { c with pos := c.pos + 1 } :=
  readRaw_bind_pure_ok _ h

theorem readU8_error {c : Cursor} (h : c.buf.size < c.pos + 1) :
    readU8 c = .error (.outOfBounds c.pos 1 c.buf.size) c :=
  readRaw_bind_pure_error _ h

theorem readU16_ok {c : Cursor} (h : c.pos + 2 ≤ c.buf.size) :
    readU16 c =
      .ok (wordLE ((c.buf.slice c.pos 2).getD 0 0#8) ((c.buf.slice c.pos 2).getD 1 0#8))
        { c with pos := c.pos + 2 } :=
  readRaw_bind_pure_ok (fun raw => wordLE (raw.getD 0 0#8) (raw.getD 1 0#8)) h

theorem readU16_error {c : Cursor} (h : c.buf.size < c.pos + 2) :
    readU16 c = .error (.outOfBounds c.pos 2 c.buf.size) c :=
  readRaw_bind_pure_error (fun raw => wordLE (raw.getD 0 0#8) (raw.getD 1 0#8)) h

theorem readText_ok {c : Cursor} {n : Nat} (h : c.pos + n ≤ c.buf.size) :
    readText n c = .ok (trimNulls (c.buf.slice c.pos n)) { c with pos := c.pos + n } :=
  readRaw_bind_pure_ok trimNulls h

theorem readText_error {c : Cursor} {n : Nat} (h : c.buf.size < c.pos + n) :
    readText n c = .error (.outOfBounds c.pos n c.buf.size) c :=
  readRaw_bind_pure_error trimNulls h

/-- What the header stage can do: a short input; an error inside the cursor; a bad magic under strict validation; or the
record. -/
theorem headerStage_cases (cfg : Config) (b : List Byte) (s : State) :
    (b.length < hdrLen ∧
      headerStage cfg b s = .error (({ s with hdr := none }).raise (.truncatedInput b.length))) ∨
    (hdrLen ≤ b.length ∧ ∃ e c, decodeFields cfg (Cursor.attach (Memory.ofBytes b)) = .error e c ∧
      headerStage cfg b s =
        .error (({ s with
          input := { s.input with buf := Memory.ofBytes b }, cur := some c.pos, hdr := none }).raise e)) ∨
    (hdrLen ≤ b.length ∧ ∃ h c, decodeFields cfg (Cursor.attach (Memory.ofBytes b)) = .ok h c ∧
      cfg.strictMagic = true ∧ h.valid = false ∧
      headerStage cfg b s =
        .error (({ s with
          input := { s.input with buf := Memory.ofBytes b }, cur := some c.pos, hdr := none }).raise
            (.invalidMagic h.magic))) ∨
    (hdrLen ≤ b.length ∧ ∃ h c, decodeFields cfg (Cursor.attach (Memory.ofBytes b)) = .ok h c ∧
      (cfg.strictMagic = false ∨ h.valid = true) ∧
      headerStage cfg b s =
        .ok { s with
          input := { s.input with buf := Memory.ofBytes b }, cur := some c.pos, hdr := some h, st := .ok }) := by
  unfold headerStage
  by_cases hl : b.length < hdrLen
  · exact .inl ⟨hl, by rw [if_pos hl]⟩
  · rw [if_neg hl]
    have hl' : hdrLen ≤ b.length := by omega
    cases hd : decodeFields cfg (Cursor.attach (Memory.ofBytes b)) with
    | error e c => exact .inr (.inl ⟨hl', e, c, rfl, by simp only [hd]⟩)
    | ok h c =>
      by_cases hv : (cfg.strictMagic && !h.valid) = true
      · refine .inr (.inr (.inl ⟨hl', h, c, rfl, ?_, ?_, by simp only [hd]; rw [if_pos hv]⟩)) <;> simp_all
      · refine .inr (.inr (.inr ⟨hl', h, c, rfl, ?_, by simp only [hd]; rw [if_neg hv]⟩))
        cases h1 : cfg.strictMagic <;> cases h2 : h.valid <;> simp_all

end Sys2Proof.Machine
end

