-- ==== Sys2Proof/Laws/Decode.lean ====
section
/-! SUPPORT. Byte order and lengths: what the words and the bytes of an instruction say of each other. -/

namespace Sys2Proof

/-- R67: the value of two bytes is the first plus 256 times the second. -/
theorem toNat_wordLE (lo hi : Byte) : (wordLE lo hi).toNat = lo.toNat + 256 * hi.toNat := by
  show (hi ++ lo : BitVec (8 + 8)).toNat = _
  rw [BitVec.toNat_append, Nat.shiftLeft_eq, Nat.mul_comm, ← Nat.two_pow_add_eq_or_of_lt lo.isLt]
  omega

theorem toNat_lowByte (w : Word) : (lowByte w).toNat = w.toNat % 256 := by
  simp [lowByte, BitVec.extractLsb'_toNat]

theorem toNat_highByte (w : Word) : (highByte w).toNat = w.toNat / 256 := by
  have := w.isLt
  simp [highByte, BitVec.extractLsb'_toNat, Nat.shiftRight_eq_div_pow]
  omega

@[simp] theorem wordLE_lowByte_highByte (w : Word) : wordLE (lowByte w) (highByte w) = w := by
  apply BitVec.eq_of_toNat_eq
  rw [toNat_wordLE, toNat_lowByte, toNat_highByte]
  omega

@[simp] theorem lowByte_wordLE (lo hi : Byte) : lowByte (wordLE lo hi) = lo := by
  apply BitVec.eq_of_toNat_eq
  have := lo.isLt
  rw [toNat_lowByte, toNat_wordLE]
  omega

@[simp] theorem highByte_wordLE (lo hi : Byte) : highByte (wordLE lo hi) = hi := by
  apply BitVec.eq_of_toNat_eq
  have := lo.isLt
  rw [toNat_highByte, toNat_wordLE]
  omega

/-- An instruction is its opcode byte and its operand's bytes (R95). -/
theorem length_operand_bytes (i : Instr) : i.operand.bytes.length + 1 = i.length := rfl

/-- A property of every byte follows from its 256 cases. -/
theorem forall_byte_of_nat {P : Byte → Prop} (h : ∀ k, k < 256 → P (BitVec.ofNat 8 k)) (b : Byte) : P b := by
  simpa using h b.toNat b.isLt

end Sys2Proof
end

