-- ==== Sys2Proof/Laws/State.lean ====
section
/-! SUPPORT. What each named update of the state does to each field, so that no proof unfolds a record update. -/

namespace Sys2Proof.Machine

variable (s : State)

/-! ## `raise` (R309) -/

@[simp] theorem State.raise_cur (e : Status) : (s.raise e).cur = s.cur := rfl
@[simp] theorem State.raise_hdr (e : Status) : (s.raise e).hdr = s.hdr := rfl
@[simp] theorem State.raise_dis (e : Status) : (s.raise e).dis = s.dis := rfl
@[simp] theorem State.raise_ir (e : Status) : (s.raise e).ir = s.ir := rfl
@[simp] theorem State.raise_tr (e : Status) : (s.raise e).tr = s.tr := rfl
@[simp] theorem State.raise_st (e : Status) : (s.raise e).st = e := rfl
@[simp] theorem State.raise_phase (e : Status) : (s.raise e).phase = .idle := rfl
@[simp] theorem State.raise_input (e : Status) : (s.raise e).input = s.input := rfl
@[simp] theorem State.raise_job (e : Status) : (s.raise e).job = .noCommand := rfl
@[simp] theorem State.raise_out (e : Status) : (s.raise e).out = s.out := rfl
@[simp] theorem State.raise_host (e : Status) : (s.raise e).host = s.host := rfl

/-! ## `raiseTruncated` (R277, R311) -/

section

variable (off : Nat) (b : Byte) (len avail : Nat)

@[simp] theorem State.raiseTruncated_cur : (s.raiseTruncated off b len avail).cur = s.cur := rfl
@[simp] theorem State.raiseTruncated_hdr : (s.raiseTruncated off b len avail).hdr = s.hdr := rfl
@[simp] theorem State.raiseTruncated_dis : (s.raiseTruncated off b len avail).dis = s.dis := rfl
@[simp] theorem State.raiseTruncated_ir : (s.raiseTruncated off b len avail).ir = s.ir := rfl
@[simp] theorem State.raiseTruncated_tr : (s.raiseTruncated off b len avail).tr = { s.tr with present := false } := rfl
@[simp] theorem State.raiseTruncated_st : (s.raiseTruncated off b len avail).st = .truncatedInstruction off b len avail := rfl
@[simp] theorem State.raiseTruncated_phase : (s.raiseTruncated off b len avail).phase = .idle := rfl
@[simp] theorem State.raiseTruncated_input : (s.raiseTruncated off b len avail).input = s.input := rfl
@[simp] theorem State.raiseTruncated_job : (s.raiseTruncated off b len avail).job = .noCommand := rfl
@[simp] theorem State.raiseTruncated_out : (s.raiseTruncated off b len avail).out = s.out := rfl
@[simp] theorem State.raiseTruncated_host : (s.raiseTruncated off b len avail).host = s.host := rfl

end

/-! ## `commit` (R274) -/

@[simp] theorem State.commit_cur (r : Record) : (s.commit r).cur = s.cur := rfl
@[simp] theorem State.commit_hdr (r : Record) : (s.commit r).hdr = s.hdr := rfl
@[simp] theorem State.commit_dis (r : Record) :
    (s.commit r).dis = { s.dis with off := some (r.offset + r.len), count := s.dis.count + 1 } := rfl
@[simp] theorem State.commit_ir (r : Record) : (s.commit r).ir = some r := rfl
@[simp] theorem State.commit_tr (r : Record) : (s.commit r).tr = s.tr := rfl
@[simp] theorem State.commit_st (r : Record) : (s.commit r).st = s.st := rfl
@[simp] theorem State.commit_phase (r : Record) : (s.commit r).phase = s.phase := rfl
@[simp] theorem State.commit_input (r : Record) : (s.commit r).input = s.input := rfl
@[simp] theorem State.commit_job (r : Record) : (s.commit r).job = s.job := rfl
@[simp] theorem State.commit_out (r : Record) : (s.commit r).out = s.out ++ [r] := rfl
@[simp] theorem State.commit_host (r : Record) : (s.commit r).host = s.host := rfl

/-! ## `endWalk` (R273, R291) -/

@[simp] theorem State.endWalk_cur : s.endWalk.cur = s.cur := rfl
@[simp] theorem State.endWalk_hdr : s.endWalk.hdr = s.hdr := rfl
@[simp] theorem State.endWalk_dis : s.endWalk.dis = s.dis := rfl
@[simp] theorem State.endWalk_ir : s.endWalk.ir = s.ir := rfl
@[simp] theorem State.endWalk_tr :
    s.endWalk.tr = { s.tr with present := s.tr.present || s.job.completesTune } := rfl
@[simp] theorem Job.completesTune_eq (j : Job) : j.completesTune = true ↔ j = .analyze := by
  cases j <;> simp [Job.completesTune]
@[simp] theorem Job.completesTune_eq_false (j : Job) : j.completesTune = false ↔ j ≠ .analyze := by
  cases j <;> simp [Job.completesTune]
@[simp] theorem Job.completesTune_analyze : Job.completesTune .analyze = true := rfl
@[simp] theorem Job.completesTune_disassemble : Job.completesTune .disassemble = false := rfl
@[simp] theorem State.endWalk_st : s.endWalk.st = .ok := rfl
@[simp] theorem State.endWalk_phase : s.endWalk.phase = .idle := rfl
@[simp] theorem State.endWalk_input : s.endWalk.input = s.input := rfl
@[simp] theorem State.endWalk_job : s.endWalk.job = .noCommand := rfl
@[simp] theorem State.endWalk_out : s.endWalk.out = s.out := rfl
@[simp] theorem State.endWalk_host : s.endWalk.host = s.host := rfl

/-! ## `finishIfDone` (R273) -/

/-- A running walk at its end is ended; every other state stays as it is. -/
theorem State.finishIfDone_cases :
    (∃ off high, s.phase = .disRun ∧ s.dis.off = some off ∧ s.dis.high = some high ∧ high ≤ off ∧
      s.finishIfDone = s.endWalk) ∨
    ((∀ off high, s.phase = .disRun → s.dis.off = some off → s.dis.high = some high → off < high) ∧
      s.finishIfDone = s) := by
  unfold State.finishIfDone
  split
  next off high hp ho hh =>
    split
    next hle => exact .inl ⟨off, high, hp, ho, hh, hle, rfl⟩
    next hlt =>
      refine .inr ⟨fun a b _ ha hb => ?_, rfl⟩
      rw [ho] at ha; rw [hh] at hb
      cases ha; cases hb
      omega
  next hno => exact .inr ⟨fun a b hp ha hb => absurd hb (hno a b hp ha), rfl⟩

theorem State.finishIfDone_of_idle (h : s.phase = .idle) : s.finishIfDone = s := by
  unfold State.finishIfDone
  simp [h]

theorem State.finishIfDone_of_lt {off high : Nat} (ho : s.dis.off = some off) (hh : s.dis.high = some high)
    (hlt : off < high) : s.finishIfDone = s := by
  obtain ⟨a, b, -, ha, hb, hle, -⟩ | ⟨-, h⟩ := s.finishIfDone_cases
  · rw [ho] at ha; rw [hh] at hb
    cases ha; cases hb
    omega
  · exact h

theorem State.finishIfDone_of_le {off high : Nat} (hp : s.phase = .disRun) (ho : s.dis.off = some off)
    (hh : s.dis.high = some high) (hle : high ≤ off) : s.finishIfDone = s.endWalk := by
  obtain ⟨a, b, -, -, -, -, h⟩ | ⟨h, -⟩ := s.finishIfDone_cases
  · exact h
  · exact absurd (h off high hp ho hh) (by omega)

@[simp] theorem State.finishIfDone_dis : s.finishIfDone.dis = s.dis := by
  obtain ⟨a, b, -, -, -, -, h⟩ | ⟨-, h⟩ := s.finishIfDone_cases <;> simp [h]

@[simp] theorem State.finishIfDone_cur : s.finishIfDone.cur = s.cur := by
  obtain ⟨a, b, -, -, -, -, h⟩ | ⟨-, h⟩ := s.finishIfDone_cases <;> simp [h]

@[simp] theorem State.finishIfDone_hdr : s.finishIfDone.hdr = s.hdr := by
  obtain ⟨a, b, -, -, -, -, h⟩ | ⟨-, h⟩ := s.finishIfDone_cases <;> simp [h]

@[simp] theorem State.finishIfDone_ir : s.finishIfDone.ir = s.ir := by
  obtain ⟨a, b, -, -, -, -, h⟩ | ⟨-, h⟩ := s.finishIfDone_cases <;> simp [h]

@[simp] theorem State.finishIfDone_input : s.finishIfDone.input = s.input := by
  obtain ⟨a, b, -, -, -, -, h⟩ | ⟨-, h⟩ := s.finishIfDone_cases <;> simp [h]

@[simp] theorem State.finishIfDone_out : s.finishIfDone.out = s.out := by
  obtain ⟨a, b, -, -, -, -, h⟩ | ⟨-, h⟩ := s.finishIfDone_cases <;> simp [h]

@[simp] theorem State.finishIfDone_host : s.finishIfDone.host = s.host := by
  obtain ⟨a, b, -, -, -, -, h⟩ | ⟨-, h⟩ := s.finishIfDone_cases <;> simp [h]

/-! ## `accept` -/

@[simp] theorem State.accept_cur (c : Config) : (s.accept c).cur = s.cur := rfl
@[simp] theorem State.accept_hdr (c : Config) : (s.accept c).hdr = s.hdr := rfl
@[simp] theorem State.accept_dis (c : Config) : (s.accept c).dis = s.dis := rfl
@[simp] theorem State.accept_ir (c : Config) : (s.accept c).ir = s.ir := rfl
@[simp] theorem State.accept_tr (c : Config) : (s.accept c).tr = s.tr := rfl
@[simp] theorem State.accept_st (c : Config) : (s.accept c).st = s.st := rfl
@[simp] theorem State.accept_phase (c : Config) : (s.accept c).phase = s.phase := rfl
@[simp] theorem State.accept_input (c : Config) : (s.accept c).input = { s.input with cfg := c } := rfl
@[simp] theorem State.accept_job (c : Config) : (s.accept c).job = s.job := rfl
@[simp] theorem State.accept_out (c : Config) : (s.accept c).out = [] := rfl
@[simp] theorem State.accept_host (c : Config) : (s.accept c).host = s.host := rfl

/-! ## `applyReset` (R331) -/

@[simp] theorem State.applyReset_out : s.applyReset.out = s.out := rfl
@[simp] theorem State.applyReset_phase : s.applyReset.phase = .idle := rfl
@[simp] theorem State.applyReset_job : s.applyReset.job = .noCommand := rfl
@[simp] theorem State.applyReset_host : s.applyReset.host = { s.host with reset := false } := rfl

/-! ## `startWalk` (R270 to R273) -/

/-- The acceptance of a nonempty range: the walk runs from `low`. -/
theorem State.startWalk_of_lt (base : Word) {low high : Nat} (job : Job) (h : low < high) :
    s.startWalk base low high job =
      { s with
        dis := { off := some low, low := some low, high := some high, base := some base, count := 0 }
        phase := .disRun
        job := job } :=
  State.finishIfDone_of_lt _ rfl rfl h

/-- An empty range ends at once. -/
theorem State.startWalk_of_le (base : Word) {low high : Nat} (job : Job) (h : high ≤ low) :
    s.startWalk base low high job =
      ({ s with
        dis := { off := some low, low := some low, high := some high, base := some base, count := 0 }
        phase := .disRun
        job := job } : State).endWalk :=
  State.finishIfDone_of_le _ rfl rfl rfl h

/-! ## Outcomes -/

@[simp] theorem mapNext_next (f : State → State) : mapNext f (.next s) = .next (f s) := rfl
@[simp] theorem mapNext_fault (f : State → State) (r : Fault) : mapNext f (.fault r) = .fault r := rfl
@[simp] theorem mapNext_refused (f : State → State) (r : Refusal) : mapNext f (.refused r) = .refused r := rfl

/-- A mapped outcome is a next state exactly when the outcome was one. -/
theorem mapNext_eq_next {f : State → State} {o : Out} {t : State} :
    mapNext f o = .next t ↔ ∃ u, o = .next u ∧ f u = t := by
  cases o <;> simp [mapNext]

end Sys2Proof.Machine
end

