-- ==== Sys2Proof/Laws/Exec.lean ====
section
/-! SUPPORT. Every meaning is the one DIS step `instrStep` of its opcode, record and operand; what that step, the walk's
step and the idle block's step can answer. -/

namespace Sys2Proof.Machine

/-- The DIS step where a step exists and the instruction fits the range (R274). -/
theorem instrStep_fits {s : State} {off high : Nat} (hr : s.runningAt off high) (opc : Byte) (mn : Mnemonic)
    (mode : Mode) {len : Nat} (operand : Operand) (hfit : off + len ≤ high) :
    instrStep opc mn mode len operand s =
      .next (s.commit { mn, mode, len, operand, offset := off, opcode := opc }) := by
  obtain ⟨hp, ho, hh, hlt⟩ := hr
  simp [instrStep, hp, ho, hh, Nat.not_le.mpr hlt, Nat.not_lt.mpr hfit]

/-- The DIS step where the instruction passes the range (R277). -/
theorem instrStep_truncated {s : State} {off high : Nat} (hr : s.runningAt off high) (opc : Byte) (mn : Mnemonic)
    (mode : Mode) {len : Nat} (operand : Operand) (hover : high < off + len) :
    instrStep opc mn mode len operand s =
      .next (s.raiseTruncated off opc len (high - off)) := by
  obtain ⟨hp, ho, hh, hlt⟩ := hr
  simp [instrStep, hp, ho, hh, Nat.not_le.mpr hlt, hover]

/-- If the DIS step answers a next state, a step existed, and it emitted the record or raised
`TruncatedInstruction`. -/
theorem instrStep_next {opc : Byte} {mn : Mnemonic} {mode : Mode} {len : Nat} {operand : Operand} {s t : State}
    (h : instrStep opc mn mode len operand s = .next t) :
    ∃ off high, s.runningAt off high ∧
      ((off + len ≤ high ∧ t = s.commit { mn, mode, len, operand, offset := off, opcode := opc }) ∨
       (high < off + len ∧ t = s.raiseTruncated off opc len (high - off))) := by
  unfold instrStep at h
  split at h
  next off high ho hh =>
    split at h
    next => cases h
    next hrun =>
      simp only [not_or, not_not, Nat.not_le] at hrun
      refine ⟨off, high, ⟨hrun.1, ho, hh, hrun.2⟩, ?_⟩
      split at h
      next hlt => exact .inr ⟨hlt, by simpa using h.symm⟩
      next hge => exact .inl ⟨by omega, by simpa using h.symm⟩
  next => cases h

/-- The ROM's triple for an undocumented byte is the fallback (R172). -/
theorem rom_of_undocumented (b : Byte) (h : undocumented.contains b.toNat = true) :
    rom b = ⟨.unknown, .unknown, 1⟩ := by
  revert b
  decide

/-- A meaning's row: what it unfolds to, and the ROM's triple for its opcode byte. -/
theorem exec_of_row {i : Instr} {s : State} {opc : Byte} {mn : Mnemonic} {mode : Mode} {len : Nat}
    {operand : Operand} (hx : exec i s = instrStep opc mn mode len operand s) (ho : i.opcode = opc)
    (hp : i.operand = operand) (hr : rom opc = ⟨mn, mode, len⟩) :
    exec i s = instrStep i.opcode (rom i.opcode).mn (rom i.opcode).mode (rom i.opcode).len i.operand s := by
  rw [hx, ho, hp, hr]

/-- Every meaning is the DIS step of the ROM's triple for the instruction's opcode byte. -/
theorem exec_eq_instrStep (i : Instr) (hw : i.wf = true) (s : State) :
    exec i s =
      instrStep i.opcode (rom i.opcode).mn (rom i.opcode).mode (rom i.opcode).len i.operand s := by
  cases i
  case unknown b => exact exec_of_row rfl rfl rfl (rom_of_undocumented b hw)
  all_goals exact exec_of_row rfl rfl rfl (by decide)

/-- What a step of the walk can do once `DIS.off` and `DIS.high` hold values. -/
theorem runStep_cases {s : State} {off high : Nat} (ho : s.dis.off = some off) (hh : s.dis.high = some high) :
    (high ≤ off ∧ runStep s = .next s.endWalk) ∨
    (off < high ∧
      ((∃ i rest, decode (fetchWindow s.input.code off high) = .ok i rest ∧
          runStep s = mapNext State.finishIfDone (exec i s)) ∨
       (∃ b len avail, decode (fetchWindow s.input.code off high) = .reject (.truncated b len avail) ∧
          runStep s = shortFetch b len off high s) ∨
       (decode (fetchWindow s.input.code off high) = .reject .noBytes ∧
          runStep s = .fault .outsideBuffer))) := by
  unfold runStep
  rw [ho, hh]
  by_cases hle : high ≤ off
  · exact .inl ⟨hle, by simp [hle]⟩
  · refine .inr ⟨by omega, ?_⟩
    cases hd : decode (fetchWindow s.input.code off high) with
    | ok i rest => exact .inl ⟨i, rest, rfl, by simp [hle, hd]⟩
    | reject e =>
      cases e with
      | noBytes => exact .inr (.inr ⟨rfl, by simp [hle, hd]⟩)
      | truncated b len avail => exact .inr (.inl ⟨b, len, avail, rfl, by simp [hle, hd]⟩)

/-- What a step can do (R331, R346). -/
theorem step_cases (s : State) :
    (s.host.reset = true ∧ step s = .next s.applyReset) ∨
    (s.host.reset = false ∧ s.phase = .disRun ∧ step s = runStep s) ∨
    (s.host.reset = false ∧ s.phase = .idle ∧ step s = idleStep s) := by
  unfold step
  cases hr : s.host.reset <;> cases hp : s.phase <;> simp

/-- What a step of an idle block can do: the due stage of `analyze`, waiting, or the host's next command. -/
theorem idleStep_cases (s : State) :
    (s.job = .analyzeDue ∧ idleStep s = acceptStage s) ∨
    (s.job ≠ .analyzeDue ∧ s.host.requests = [] ∧ idleStep s = .next s) ∨
    (s.job ≠ .analyzeDue ∧ ∃ r rs, s.host.requests = r :: rs ∧
      idleStep s = issue r { s with host := { s.host with requests := rs } }) := by
  unfold idleStep
  cases hj : s.job <;> cases hr : s.host.requests <;> simp

/-- A run's first step. -/
theorem run_succ_of_next {M : Host.Core} {s t : M.State} {k : Nat} (h : M.step s = .next t) :
    M.run (k + 1) s = M.run k t := by
  simp only [Host.Core.run, h]

/-- What issuing a command can do. -/
theorem issue_cases (r : Request) (s : State) :
    (∃ why, issue r s = .refused why) ∨
    (∃ b, r.cmd = .decodeHeader b ∧ issue r s = .next (decodeHeader r.cfg b (s.accept r.cfg))) ∨
    (∃ code base low high, r.cmd = .disassemble code base low high ∧
      issue r s = .next (disassemble code base low high (s.accept r.cfg))) ∨
    (∃ file name, r.cmd = .analyze file name ∧ issue r s = .next (analyze r.cfg file name (s.accept r.cfg))) := by
  unfold issue
  cases r.cmd with
  | decodeHeader b => cases h : lengthRefusal r.cfg b.length <;> simp [h]
  | disassemble code base low high =>
    cases h : (cfgRefusal r.cfg).or (lengthRefusal r.cfg code.length) <;> simp [h]
  | analyze file name => cases h : (cfgRefusal r.cfg).or (lengthRefusal r.cfg file.length) <;> simp [h]

/-- What `startWalk` can do (R271, R272). -/
theorem startWalk_cases (s : State) (base : Word) (low high : Nat) (job : Job) :
    let t : State :=
      { s with
        dis := { off := some low, low := some low, high := some high, base := some base, count := 0 }
        phase := .disRun
        job := job }
    (low < high ∧ s.startWalk base low high job = t) ∨ (high ≤ low ∧ s.startWalk base low high job = t.endWalk) := by
  by_cases h : low < high
  · exact .inl ⟨h, State.finishIfDone_of_lt _ rfl rfl h⟩
  · refine .inr ⟨by omega, ?_⟩
    unfold State.startWalk State.finishIfDone
    simp only [if_pos (Nat.le_of_not_lt h)]

end Sys2Proof.Machine
end

