-- ==== Sys2Proof/Laws/Header.lean ====
section
/-! SUPPORT. The header schema as one equation: what the cursor's fields are in terms of the bytes, so that no proof runs the
cursor again. -/

namespace Sys2Proof.Machine

/-- A cursor operation that answers, followed by another. -/
theorem bind_of_ok {α β : Type} {m : CursorM α} {f : α → CursorM β} {c d : Cursor} {a : α} (h : m c = .ok a d) :
    (m >>= f) c = f a d := by
  simp [bind, EStateM.bind, h]

/-- The record of the bytes `b`, field by field at the offsets of R90. -/
def headerAt (cfg : Config) (b : List Byte) : Header :=
  let raw := fun p n => (b.drop p).take n
  let u8 := fun p => (raw p 1).getD 0 0#8
  let u16 := fun p => wordLE ((raw p 2).getD 0 0#8) ((raw p 2).getD 1 0#8)
  let f := u8 122
  let e := u8 123
  { magic := raw 0 5
    version := u8 5
    totalSongs := u8 6
    startingSong := u8 7
    loadAddr := u16 8
    initAddr := u16 10
    playAddr := u16 12
    title := trimNulls (raw 14 32)
    artist := trimNulls (raw 46 32)
    copyright := trimNulls (raw 78 32)
    ntscSpeed := u16 110
    bankswitchInit := raw 112 8
    palSpeed := u16 120
    palMode := bitOf f 0
    dualMode := bitOf f 1
    ntscMode := ntscModeOf (tvStandardOf (bitOf f 0) (bitOf f 1))
    tvStandard := tvStandardOf (bitOf f 0) (bitOf f 1)
    vrc6 := bitOf e 0
    vrc7 := bitOf e 1
    fds := bitOf e 2
    mmc5 := bitOf e 3
    namco106 := bitOf e 4
    fme07 := bitOf e 5
    valid := magicValid cfg (raw 0 5) }

/-- On at least 128 bytes every cursor operation of the schema is in bounds (R302), and the cursor ends at 128 (R164). -/
theorem decodeFields_ok (cfg : Config) (b : List Byte) (h : hdrLen ≤ b.length) :
    decodeFields cfg (Cursor.attach (Memory.ofBytes b)) =
      .ok (headerAt cfg b) { buf := Memory.ofBytes b, pos := hdrLen } := by
  have h' : 128 ≤ b.length := h
  unfold decodeFields Cursor.attach
  rw [bind_of_ok (readRaw_ok (by simp; omega)), bind_of_ok (readU8_ok (by simp; omega)),
    bind_of_ok (readU8_ok (by simp; omega)), bind_of_ok (readU8_ok (by simp; omega)),
    bind_of_ok (readU16_ok (by simp; omega)), bind_of_ok (readU16_ok (by simp; omega)),
    bind_of_ok (readU16_ok (by simp; omega)), bind_of_ok (readText_ok (by simp; omega)),
    bind_of_ok (readText_ok (by simp; omega)), bind_of_ok (readText_ok (by simp; omega)),
    bind_of_ok (readU16_ok (by simp; omega)), bind_of_ok (readRaw_ok (by simp; omega)),
    bind_of_ok (readU16_ok (by simp; omega)), bind_of_ok (readU8_ok (by simp; omega)),
    bind_of_ok (readU8_ok (by simp; omega)), bind_of_ok (skip_ok (by simp; omega))]
  simp only [Memory.slice_ofBytes]
  rfl

end Sys2Proof.Machine
end

