-- ==== Sys2Proof/Laws/PerInstr.lean ====
section
/-! SUPPORT. Statements about every instruction as syntax, one lemma per constructor. Family EncodedLength: a
well-formed instruction's encoding has the length the ROM gives its opcode byte, which is the length of its mode (R97, R173). -/

namespace Sys2Proof.Laws.EncodedLength

/-- The encoding's length is the ROM's length of the opcode byte and the length of the ROM's mode. -/
def Statement (i : Instr) : Prop :=
  i.wf = true → (encode i).length = (rom i.opcode).len ∧ (encode i).length = (rom i.opcode).mode.length

/-- The statement from the opcode byte, the length and the ROM's entry. -/
theorem of_row {i : Instr} (opc : Byte) (n : Nat) (ho : i.opcode = opc) (hl : (encode i).length = n)
    (hr : (rom opc).len = n ∧ (rom opc).mode.length = n) : Statement i := fun _ => by
  rw [ho, hl, hr.1, hr.2]
  exact ⟨rfl, rfl⟩

theorem adcImm (v : Byte) : Statement (.adcImm v) := of_row 0x69#8 2 rfl rfl (by decide)
theorem adcZp (v : Byte) : Statement (.adcZp v) := of_row 0x65#8 2 rfl rfl (by decide)
theorem adcZpx (v : Byte) : Statement (.adcZpx v) := of_row 0x75#8 2 rfl rfl (by decide)
theorem adcAbs (w : Word) : Statement (.adcAbs w) := of_row 0x6D#8 3 rfl rfl (by decide)
theorem adcAbx (w : Word) : Statement (.adcAbx w) := of_row 0x7D#8 3 rfl rfl (by decide)
theorem adcAby (w : Word) : Statement (.adcAby w) := of_row 0x79#8 3 rfl rfl (by decide)
theorem adcIzx (v : Byte) : Statement (.adcIzx v) := of_row 0x61#8 2 rfl rfl (by decide)
theorem adcIzy (v : Byte) : Statement (.adcIzy v) := of_row 0x71#8 2 rfl rfl (by decide)
theorem sbcImm (v : Byte) : Statement (.sbcImm v) := of_row 0xE9#8 2 rfl rfl (by decide)
theorem sbcZp (v : Byte) : Statement (.sbcZp v) := of_row 0xE5#8 2 rfl rfl (by decide)
theorem sbcZpx (v : Byte) : Statement (.sbcZpx v) := of_row 0xF5#8 2 rfl rfl (by decide)
theorem sbcAbs (w : Word) : Statement (.sbcAbs w) := of_row 0xED#8 3 rfl rfl (by decide)
theorem sbcAbx (w : Word) : Statement (.sbcAbx w) := of_row 0xFD#8 3 rfl rfl (by decide)
theorem sbcAby (w : Word) : Statement (.sbcAby w) := of_row 0xF9#8 3 rfl rfl (by decide)
theorem sbcIzx (v : Byte) : Statement (.sbcIzx v) := of_row 0xE1#8 2 rfl rfl (by decide)
theorem sbcIzy (v : Byte) : Statement (.sbcIzy v) := of_row 0xF1#8 2 rfl rfl (by decide)
theorem andImm (v : Byte) : Statement (.andImm v) := of_row 0x29#8 2 rfl rfl (by decide)
theorem andZp (v : Byte) : Statement (.andZp v) := of_row 0x25#8 2 rfl rfl (by decide)
theorem andZpx (v : Byte) : Statement (.andZpx v) := of_row 0x35#8 2 rfl rfl (by decide)
theorem andAbs (w : Word) : Statement (.andAbs w) := of_row 0x2D#8 3 rfl rfl (by decide)
theorem andAbx (w : Word) : Statement (.andAbx w) := of_row 0x3D#8 3 rfl rfl (by decide)
theorem andAby (w : Word) : Statement (.andAby w) := of_row 0x39#8 3 rfl rfl (by decide)
theorem andIzx (v : Byte) : Statement (.andIzx v) := of_row 0x21#8 2 rfl rfl (by decide)
theorem andIzy (v : Byte) : Statement (.andIzy v) := of_row 0x31#8 2 rfl rfl (by decide)
theorem oraImm (v : Byte) : Statement (.oraImm v) := of_row 0x09#8 2 rfl rfl (by decide)
theorem oraZp (v : Byte) : Statement (.oraZp v) := of_row 0x05#8 2 rfl rfl (by decide)
theorem oraZpx (v : Byte) : Statement (.oraZpx v) := of_row 0x15#8 2 rfl rfl (by decide)
theorem oraAbs (w : Word) : Statement (.oraAbs w) := of_row 0x0D#8 3 rfl rfl (by decide)
theorem oraAbx (w : Word) : Statement (.oraAbx w) := of_row 0x1D#8 3 rfl rfl (by decide)
theorem oraAby (w : Word) : Statement (.oraAby w) := of_row 0x19#8 3 rfl rfl (by decide)
theorem oraIzx (v : Byte) : Statement (.oraIzx v) := of_row 0x01#8 2 rfl rfl (by decide)
theorem oraIzy (v : Byte) : Statement (.oraIzy v) := of_row 0x11#8 2 rfl rfl (by decide)
theorem eorImm (v : Byte) : Statement (.eorImm v) := of_row 0x49#8 2 rfl rfl (by decide)
theorem eorZp (v : Byte) : Statement (.eorZp v) := of_row 0x45#8 2 rfl rfl (by decide)
theorem eorZpx (v : Byte) : Statement (.eorZpx v) := of_row 0x55#8 2 rfl rfl (by decide)
theorem eorAbs (w : Word) : Statement (.eorAbs w) := of_row 0x4D#8 3 rfl rfl (by decide)
theorem eorAbx (w : Word) : Statement (.eorAbx w) := of_row 0x5D#8 3 rfl rfl (by decide)
theorem eorAby (w : Word) : Statement (.eorAby w) := of_row 0x59#8 3 rfl rfl (by decide)
theorem eorIzx (v : Byte) : Statement (.eorIzx v) := of_row 0x41#8 2 rfl rfl (by decide)
theorem eorIzy (v : Byte) : Statement (.eorIzy v) := of_row 0x51#8 2 rfl rfl (by decide)
theorem bitZp (v : Byte) : Statement (.bitZp v) := of_row 0x24#8 2 rfl rfl (by decide)
theorem bitAbs (w : Word) : Statement (.bitAbs w) := of_row 0x2C#8 3 rfl rfl (by decide)
theorem cmpImm (v : Byte) : Statement (.cmpImm v) := of_row 0xC9#8 2 rfl rfl (by decide)
theorem cmpZp (v : Byte) : Statement (.cmpZp v) := of_row 0xC5#8 2 rfl rfl (by decide)
theorem cmpZpx (v : Byte) : Statement (.cmpZpx v) := of_row 0xD5#8 2 rfl rfl (by decide)
theorem cmpAbs (w : Word) : Statement (.cmpAbs w) := of_row 0xCD#8 3 rfl rfl (by decide)
theorem cmpAbx (w : Word) : Statement (.cmpAbx w) := of_row 0xDD#8 3 rfl rfl (by decide)
theorem cmpAby (w : Word) : Statement (.cmpAby w) := of_row 0xD9#8 3 rfl rfl (by decide)
theorem cmpIzx (v : Byte) : Statement (.cmpIzx v) := of_row 0xC1#8 2 rfl rfl (by decide)
theorem cmpIzy (v : Byte) : Statement (.cmpIzy v) := of_row 0xD1#8 2 rfl rfl (by decide)
theorem cpxImm (v : Byte) : Statement (.cpxImm v) := of_row 0xE0#8 2 rfl rfl (by decide)
theorem cpxZp (v : Byte) : Statement (.cpxZp v) := of_row 0xE4#8 2 rfl rfl (by decide)
theorem cpxAbs (w : Word) : Statement (.cpxAbs w) := of_row 0xEC#8 3 rfl rfl (by decide)
theorem cpyImm (v : Byte) : Statement (.cpyImm v) := of_row 0xC0#8 2 rfl rfl (by decide)
theorem cpyZp (v : Byte) : Statement (.cpyZp v) := of_row 0xC4#8 2 rfl rfl (by decide)
theorem cpyAbs (w : Word) : Statement (.cpyAbs w) := of_row 0xCC#8 3 rfl rfl (by decide)
theorem aslAcc : Statement .aslAcc := of_row 0x0A#8 1 rfl rfl (by decide)
theorem aslZp (v : Byte) : Statement (.aslZp v) := of_row 0x06#8 2 rfl rfl (by decide)
theorem aslZpx (v : Byte) : Statement (.aslZpx v) := of_row 0x16#8 2 rfl rfl (by decide)
theorem aslAbs (w : Word) : Statement (.aslAbs w) := of_row 0x0E#8 3 rfl rfl (by decide)
theorem aslAbx (w : Word) : Statement (.aslAbx w) := of_row 0x1E#8 3 rfl rfl (by decide)
theorem lsrAcc : Statement .lsrAcc := of_row 0x4A#8 1 rfl rfl (by decide)
theorem lsrZp (v : Byte) : Statement (.lsrZp v) := of_row 0x46#8 2 rfl rfl (by decide)
theorem lsrZpx (v : Byte) : Statement (.lsrZpx v) := of_row 0x56#8 2 rfl rfl (by decide)
theorem lsrAbs (w : Word) : Statement (.lsrAbs w) := of_row 0x4E#8 3 rfl rfl (by decide)
theorem lsrAbx (w : Word) : Statement (.lsrAbx w) := of_row 0x5E#8 3 rfl rfl (by decide)
theorem rolAcc : Statement .rolAcc := of_row 0x2A#8 1 rfl rfl (by decide)
theorem rolZp (v : Byte) : Statement (.rolZp v) := of_row 0x26#8 2 rfl rfl (by decide)
theorem rolZpx (v : Byte) : Statement (.rolZpx v) := of_row 0x36#8 2 rfl rfl (by decide)
theorem rolAbs (w : Word) : Statement (.rolAbs w) := of_row 0x2E#8 3 rfl rfl (by decide)
theorem rolAbx (w : Word) : Statement (.rolAbx w) := of_row 0x3E#8 3 rfl rfl (by decide)
theorem rorAcc : Statement .rorAcc := of_row 0x6A#8 1 rfl rfl (by decide)
theorem rorZp (v : Byte) : Statement (.rorZp v) := of_row 0x66#8 2 rfl rfl (by decide)
theorem rorZpx (v : Byte) : Statement (.rorZpx v) := of_row 0x76#8 2 rfl rfl (by decide)
theorem rorAbs (w : Word) : Statement (.rorAbs w) := of_row 0x6E#8 3 rfl rfl (by decide)
theorem rorAbx (w : Word) : Statement (.rorAbx w) := of_row 0x7E#8 3 rfl rfl (by decide)
theorem incZp (v : Byte) : Statement (.incZp v) := of_row 0xE6#8 2 rfl rfl (by decide)
theorem incZpx (v : Byte) : Statement (.incZpx v) := of_row 0xF6#8 2 rfl rfl (by decide)
theorem incAbs (w : Word) : Statement (.incAbs w) := of_row 0xEE#8 3 rfl rfl (by decide)
theorem incAbx (w : Word) : Statement (.incAbx w) := of_row 0xFE#8 3 rfl rfl (by decide)
theorem decZp (v : Byte) : Statement (.decZp v) := of_row 0xC6#8 2 rfl rfl (by decide)
theorem decZpx (v : Byte) : Statement (.decZpx v) := of_row 0xD6#8 2 rfl rfl (by decide)
theorem decAbs (w : Word) : Statement (.decAbs w) := of_row 0xCE#8 3 rfl rfl (by decide)
theorem decAbx (w : Word) : Statement (.decAbx w) := of_row 0xDE#8 3 rfl rfl (by decide)
theorem inx : Statement .inx := of_row 0xE8#8 1 rfl rfl (by decide)
theorem iny : Statement .iny := of_row 0xC8#8 1 rfl rfl (by decide)
theorem dex : Statement .dex := of_row 0xCA#8 1 rfl rfl (by decide)
theorem dey : Statement .dey := of_row 0x88#8 1 rfl rfl (by decide)
theorem ldaImm (v : Byte) : Statement (.ldaImm v) := of_row 0xA9#8 2 rfl rfl (by decide)
theorem ldaZp (v : Byte) : Statement (.ldaZp v) := of_row 0xA5#8 2 rfl rfl (by decide)
theorem ldaZpx (v : Byte) : Statement (.ldaZpx v) := of_row 0xB5#8 2 rfl rfl (by decide)
theorem ldaAbs (w : Word) : Statement (.ldaAbs w) := of_row 0xAD#8 3 rfl rfl (by decide)
theorem ldaAbx (w : Word) : Statement (.ldaAbx w) := of_row 0xBD#8 3 rfl rfl (by decide)
theorem ldaAby (w : Word) : Statement (.ldaAby w) := of_row 0xB9#8 3 rfl rfl (by decide)
theorem ldaIzx (v : Byte) : Statement (.ldaIzx v) := of_row 0xA1#8 2 rfl rfl (by decide)
theorem ldaIzy (v : Byte) : Statement (.ldaIzy v) := of_row 0xB1#8 2 rfl rfl (by decide)
theorem ldxImm (v : Byte) : Statement (.ldxImm v) := of_row 0xA2#8 2 rfl rfl (by decide)
theorem ldxZp (v : Byte) : Statement (.ldxZp v) := of_row 0xA6#8 2 rfl rfl (by decide)
theorem ldxZpy (v : Byte) : Statement (.ldxZpy v) := of_row 0xB6#8 2 rfl rfl (by decide)
theorem ldxAbs (w : Word) : Statement (.ldxAbs w) := of_row 0xAE#8 3 rfl rfl (by decide)
theorem ldxAby (w : Word) : Statement (.ldxAby w) := of_row 0xBE#8 3 rfl rfl (by decide)
theorem ldyImm (v : Byte) : Statement (.ldyImm v) := of_row 0xA0#8 2 rfl rfl (by decide)
theorem ldyZp (v : Byte) : Statement (.ldyZp v) := of_row 0xA4#8 2 rfl rfl (by decide)
theorem ldyZpx (v : Byte) : Statement (.ldyZpx v) := of_row 0xB4#8 2 rfl rfl (by decide)
theorem ldyAbs (w : Word) : Statement (.ldyAbs w) := of_row 0xAC#8 3 rfl rfl (by decide)
theorem ldyAbx (w : Word) : Statement (.ldyAbx w) := of_row 0xBC#8 3 rfl rfl (by decide)
theorem staZp (v : Byte) : Statement (.staZp v) := of_row 0x85#8 2 rfl rfl (by decide)
theorem staZpx (v : Byte) : Statement (.staZpx v) := of_row 0x95#8 2 rfl rfl (by decide)
theorem staAbs (w : Word) : Statement (.staAbs w) := of_row 0x8D#8 3 rfl rfl (by decide)
theorem staAbx (w : Word) : Statement (.staAbx w) := of_row 0x9D#8 3 rfl rfl (by decide)
theorem staAby (w : Word) : Statement (.staAby w) := of_row 0x99#8 3 rfl rfl (by decide)
theorem staIzx (v : Byte) : Statement (.staIzx v) := of_row 0x81#8 2 rfl rfl (by decide)
theorem staIzy (v : Byte) : Statement (.staIzy v) := of_row 0x91#8 2 rfl rfl (by decide)
theorem stxZp (v : Byte) : Statement (.stxZp v) := of_row 0x86#8 2 rfl rfl (by decide)
theorem stxZpy (v : Byte) : Statement (.stxZpy v) := of_row 0x96#8 2 rfl rfl (by decide)
theorem stxAbs (w : Word) : Statement (.stxAbs w) := of_row 0x8E#8 3 rfl rfl (by decide)
theorem styZp (v : Byte) : Statement (.styZp v) := of_row 0x84#8 2 rfl rfl (by decide)
theorem styZpx (v : Byte) : Statement (.styZpx v) := of_row 0x94#8 2 rfl rfl (by decide)
theorem styAbs (w : Word) : Statement (.styAbs w) := of_row 0x8C#8 3 rfl rfl (by decide)
theorem tax : Statement .tax := of_row 0xAA#8 1 rfl rfl (by decide)
theorem tay : Statement .tay := of_row 0xA8#8 1 rfl rfl (by decide)
theorem tsx : Statement .tsx := of_row 0xBA#8 1 rfl rfl (by decide)
theorem txa : Statement .txa := of_row 0x8A#8 1 rfl rfl (by decide)
theorem txs : Statement .txs := of_row 0x9A#8 1 rfl rfl (by decide)
theorem tya : Statement .tya := of_row 0x98#8 1 rfl rfl (by decide)
theorem pha : Statement .pha := of_row 0x48#8 1 rfl rfl (by decide)
theorem php : Statement .php := of_row 0x08#8 1 rfl rfl (by decide)
theorem pla : Statement .pla := of_row 0x68#8 1 rfl rfl (by decide)
theorem plp : Statement .plp := of_row 0x28#8 1 rfl rfl (by decide)
theorem jmpAbs (w : Word) : Statement (.jmpAbs w) := of_row 0x4C#8 3 rfl rfl (by decide)
theorem jmpInd (w : Word) : Statement (.jmpInd w) := of_row 0x6C#8 3 rfl rfl (by decide)
theorem jsrAbs (w : Word) : Statement (.jsrAbs w) := of_row 0x20#8 3 rfl rfl (by decide)
theorem rts : Statement .rts := of_row 0x60#8 1 rfl rfl (by decide)
theorem rti : Statement .rti := of_row 0x40#8 1 rfl rfl (by decide)
theorem brk : Statement .brk := of_row 0x00#8 1 rfl rfl (by decide)
theorem nop : Statement .nop := of_row 0xEA#8 1 rfl rfl (by decide)
theorem bccRel (v : Byte) : Statement (.bccRel v) := of_row 0x90#8 2 rfl rfl (by decide)
theorem bcsRel (v : Byte) : Statement (.bcsRel v) := of_row 0xB0#8 2 rfl rfl (by decide)
theorem beqRel (v : Byte) : Statement (.beqRel v) := of_row 0xF0#8 2 rfl rfl (by decide)
theorem bmiRel (v : Byte) : Statement (.bmiRel v) := of_row 0x30#8 2 rfl rfl (by decide)
theorem bneRel (v : Byte) : Statement (.bneRel v) := of_row 0xD0#8 2 rfl rfl (by decide)
theorem bplRel (v : Byte) : Statement (.bplRel v) := of_row 0x10#8 2 rfl rfl (by decide)
theorem bvcRel (v : Byte) : Statement (.bvcRel v) := of_row 0x50#8 2 rfl rfl (by decide)
theorem bvsRel (v : Byte) : Statement (.bvsRel v) := of_row 0x70#8 2 rfl rfl (by decide)
theorem clc : Statement .clc := of_row 0x18#8 1 rfl rfl (by decide)
theorem cld : Statement .cld := of_row 0xD8#8 1 rfl rfl (by decide)
theorem cli : Statement .cli := of_row 0x58#8 1 rfl rfl (by decide)
theorem clv : Statement .clv := of_row 0xB8#8 1 rfl rfl (by decide)
theorem sec : Statement .sec := of_row 0x38#8 1 rfl rfl (by decide)
theorem sed : Statement .sed := of_row 0xF8#8 1 rfl rfl (by decide)
theorem sei : Statement .sei := of_row 0x78#8 1 rfl rfl (by decide)

theorem unknown (b : Byte) : Statement (.unknown b) := fun hw => by
  have hb : (Instr.unknown b).opcode = b := rfl
  rw [hb, Machine.rom_of_undocumented b hw]
  exact ⟨rfl, rfl⟩

end Sys2Proof.Laws.EncodedLength
end

