-- ==== Sys2Proof/Machine/Listing.lean ====
section
/-! DEFINITION. The canonical listing line (R110 to R112), fixed by the spec "for tests only": `MNEMONIC MODE OPERAND`. The
block's output is the record; nothing in the machine reads a line. -/

namespace Sys2Proof.Machine

/-- The mnemonic's text (R111), by id (R104). -/
def mnemonicText (m : Mnemonic) : String :=
  ["unknown",
   "ADC", "AND", "ASL", "BCC", "BCS", "BEQ", "BIT", "BMI",
   "BNE", "BPL", "BRK", "BVC", "BVS", "CLC", "CLD", "CLI",
   "CLV", "CMP", "CPX", "CPY", "DEC", "DEX", "DEY", "EOR",
   "INC", "INX", "INY", "JMP", "JSR", "LDA", "LDX", "LDY",
   "LSR", "NOP", "ORA", "PHA", "PHP", "PLA", "PLP", "ROL",
   "ROR", "RTI", "RTS", "SBC", "SEC", "SED", "SEI", "STA",
   "STX", "STY", "TAX", "TAY", "TSX", "TXA", "TXS", "TYA"].getD m.id ""

/-- The mode's abbreviation (R103, R111), by id. -/
def modeText (m : Mode) : String :=
  ["unknown", "IMM", "ZP", "ZPX", "ZPY", "ABS", "ABX", "ABY", "IND", "IZX", "IZY", "ACC", "IMP", "REL"].getD m.id ""

/-- One upper-case hexadecimal digit. -/
def hexDigit (n : Nat) : Char :=
  ['0', '1', '2', '3', '4', '5', '6', '7', '8', '9', 'A', 'B', 'C', 'D', 'E', 'F'].getD n '0'

/-- The operand in hexadecimal, "zero-padded to operand width" (R110), after a space; nothing when absent. -/
def operandText : Operand → String
  | .absent => ""
  | .u8 v => " " ++ String.ofList [hexDigit (v.toNat / 16), hexDigit (v.toNat % 16)]
  | .u16 w =>
    " " ++ String.ofList
      [hexDigit (w.toNat / 4096), hexDigit (w.toNat / 256 % 16), hexDigit (w.toNat / 16 % 16), hexDigit (w.toNat % 16)]

/-- The canonical line of a record (R112). -/
def listingLine (r : Record) : String := mnemonicText r.mn ++ " " ++ modeText r.mode ++ operandText r.operand

end Sys2Proof.Machine
end

