-- ==== Sys2Proof/Tests/Slice0.lean ====
section
/-! SUPPORT. The model's own tests: every expected value is one the spec states (95_test_vectors.md, the example bytes of the
ISA family files, the tables of the rules named), and for each statement with hypotheses a witness that meets them. -/

open Sys2Proof Sys2Proof.Machine

namespace Sys2Proof.Tests

set_option maxRecDepth 20000

/-! ## Small states -/

/-- A `disassemble` of `code` at base 0x8000 that stands at `off`, having started there. -/
def walking (code : List Byte) (off high : Nat) : State :=
  { State.reset with
    dis := { off := some off, low := some off, high := some high, base := some 0x8000#16, count := 0 }
    phase := .disRun
    job := .disassemble
    input := { State.reset.input with code := Memory.ofBytes code } }

/-- The block after reset, its host about to issue one command. -/
def asking (cfg : Config) (cmd : Command) : State :=
  { State.reset with host := { requests := [⟨cfg, cmd⟩], reset := false } }

/-- One step from `s` answers a next state that passes `p`. -/
def stepsTo (s : State) (p : State → Bool) : Bool :=
  match step s with
  | .next t => p t
  | .fault _ => false
  | .refused _ => false

/-- One step from `s` is refused for `why`. -/
def refuses (s : State) (why : Refusal) : Bool :=
  match step s with
  | .refused r => decide (r = why)
  | .next _ => false
  | .fault _ => false

/-- The canonical lines and the status of a whole buffer's sweep. -/
def listing (code : List Byte) : List String × Status :=
  let res := sweepRange code 0 code.length
  (res.1.map listingLine, res.2)

/-- V3.1's header bytes, with the last magic byte, the load address and the bytes at 122 and 123 as given. -/
def headerBytes (m4 lo hi f e : Byte) : List Byte :=
  [0x4E, 0x45, 0x53, 0x4D, m4, 0x01, 0x03, 0x01, lo, hi, 0x03, 0x80, 0x06, 0x80, 0x4D, 0x79] ++
  [0x20, 0x54, 0x75, 0x6E, 0x65, 0x00, 0x00, 0x00, 0x00, 0x00, 0x00, 0x00, 0x00, 0x00, 0x00, 0x00] ++
  [0x00, 0x00, 0x00, 0x00, 0x00, 0x00, 0x00, 0x00, 0x00, 0x00, 0x00, 0x00, 0x00, 0x00, 0x41, 0x2E] ++
  [0x20, 0x43, 0x6F, 0x6D, 0x70, 0x6F, 0x73, 0x65, 0x72, 0x00, 0x00, 0x00, 0x00, 0x00, 0x00, 0x00] ++
  [0x00, 0x00, 0x00, 0x00, 0x00, 0x00, 0x00, 0x00, 0x00, 0x00, 0x00, 0x00, 0x00, 0x00, 0x32, 0x30] ++
  [0x30, 0x31, 0x20, 0x4E, 0x6F, 0x62, 0x6F, 0x64, 0x79, 0x00, 0x00, 0x00, 0x00, 0x00, 0x00, 0x00] ++
  [0x00, 0x00, 0x00, 0x00, 0x00, 0x00, 0x00, 0x00, 0x00, 0x00, 0x00, 0x00, 0x00, 0x00, 0x1A, 0x41] ++
  [0x00, 0x00, 0x00, 0x00, 0x00, 0x00, 0x00, 0x00, 0x20, 0x4E, f, e, 0x00, 0x00, 0x00, 0x00]

/-- V3.1. -/
def v31 : List Byte := headerBytes 0x1A 0x00 0x80 0x00 0x00

/-- The header record of V3.1's table. -/
def v31Header : Header where
  magic := [0x4E, 0x45, 0x53, 0x4D, 0x1A]
  version := 1
  totalSongs := 3
  startingSong := 1
  loadAddr := 0x8000
  initAddr := 0x8003
  playAddr := 0x8006
  title := [0x4D, 0x79, 0x20, 0x54, 0x75, 0x6E, 0x65]
  artist := [0x41, 0x2E, 0x20, 0x43, 0x6F, 0x6D, 0x70, 0x6F, 0x73, 0x65, 0x72]
  copyright := [0x32, 0x30, 0x30, 0x31, 0x20, 0x4E, 0x6F, 0x62, 0x6F, 0x64, 0x79]
  ntscSpeed := 0x411A
  bankswitchInit := [0, 0, 0, 0, 0, 0, 0, 0]
  palSpeed := 0x4E20
  palMode := false
  dualMode := false
  ntscMode := true
  tvStandard := .NTSC
  vrc6 := false
  vrc7 := false
  fds := false
  mmc5 := false
  namco106 := false
  fme07 := false
  valid := true

/-- The header a byte string decodes to from reset. -/
def headerOf (cfg : Config) (b : List Byte) : Option Header := (decodeHeader cfg b State.reset).hdr

/-! ## WellFormed: each check refuses an ill-formed term -/

/-- 0xA9 is documented (R220), so it is no `unknown`. -/
theorem test_wf_refuses_documented_unknown : Instr.wf (.unknown 0xA9#8) = false := by decide

/-- 0x02 is undocumented (R108). -/
theorem test_wf_accepts_undocumented : Instr.wf (.unknown 0x02#8) = true := by decide

/-- U2, U16: the two configurations the spec names and does not admit; R9: the default one. -/
theorem test_wf_config :
    Config.admitted { truncPolicy := .emitPartial } = false ∧ Config.admitted { brkLen := 2 } = false ∧
    Config.admitted {} = true := by decide

/-! ## Decoding: every constructor from a word of the spec's tables -/

/-- R200, the rows' example bytes. -/
theorem test_decode_ADC :
    decode [0b01101001#8, 0x42#8] = .ok (.adcImm 0x42#8) [] ∧
    decode [0b01100101#8, 0x42#8] = .ok (.adcZp 0x42#8) [] ∧
    decode [0b01110101#8, 0x42#8] = .ok (.adcZpx 0x42#8) [] ∧
    decode [0b01101101#8, 0x34#8, 0x12#8] = .ok (.adcAbs 0x1234#16) [] ∧
    decode [0b01111101#8, 0x34#8, 0x12#8] = .ok (.adcAbx 0x1234#16) [] ∧
    decode [0b01111001#8, 0x34#8, 0x12#8] = .ok (.adcAby 0x1234#16) [] ∧
    decode [0b01100001#8, 0x42#8] = .ok (.adcIzx 0x42#8) [] ∧
    decode [0b01110001#8, 0x42#8] = .ok (.adcIzy 0x42#8) [] := by
  decide

/-- R201, the rows' example bytes. -/
theorem test_decode_SBC :
    decode [0b11101001#8, 0x42#8] = .ok (.sbcImm 0x42#8) [] ∧
    decode [0b11100101#8, 0x42#8] = .ok (.sbcZp 0x42#8) [] ∧
    decode [0b11110101#8, 0x42#8] = .ok (.sbcZpx 0x42#8) [] ∧
    decode [0b11101101#8, 0x34#8, 0x12#8] = .ok (.sbcAbs 0x1234#16) [] ∧
    decode [0b11111101#8, 0x34#8, 0x12#8] = .ok (.sbcAbx 0x1234#16) [] ∧
    decode [0b11111001#8, 0x34#8, 0x12#8] = .ok (.sbcAby 0x1234#16) [] ∧
    decode [0b11100001#8, 0x42#8] = .ok (.sbcIzx 0x42#8) [] ∧
    decode [0b11110001#8, 0x42#8] = .ok (.sbcIzy 0x42#8) [] := by
  decide

/-- R202, the rows' example bytes. -/
theorem test_decode_AND :
    decode [0b00101001#8, 0x42#8] = .ok (.andImm 0x42#8) [] ∧
    decode [0b00100101#8, 0x42#8] = .ok (.andZp 0x42#8) [] ∧
    decode [0b00110101#8, 0x42#8] = .ok (.andZpx 0x42#8) [] ∧
    decode [0b00101101#8, 0x34#8, 0x12#8] = .ok (.andAbs 0x1234#16) [] ∧
    decode [0b00111101#8, 0x34#8, 0x12#8] = .ok (.andAbx 0x1234#16) [] ∧
    decode [0b00111001#8, 0x34#8, 0x12#8] = .ok (.andAby 0x1234#16) [] ∧
    decode [0b00100001#8, 0x42#8] = .ok (.andIzx 0x42#8) [] ∧
    decode [0b00110001#8, 0x42#8] = .ok (.andIzy 0x42#8) [] := by
  decide

/-- R203, the rows' example bytes. -/
theorem test_decode_ORA :
    decode [0b00001001#8, 0x42#8] = .ok (.oraImm 0x42#8) [] ∧
    decode [0b00000101#8, 0x42#8] = .ok (.oraZp 0x42#8) [] ∧
    decode [0b00010101#8, 0x42#8] = .ok (.oraZpx 0x42#8) [] ∧
    decode [0b00001101#8, 0x34#8, 0x12#8] = .ok (.oraAbs 0x1234#16) [] ∧
    decode [0b00011101#8, 0x34#8, 0x12#8] = .ok (.oraAbx 0x1234#16) [] ∧
    decode [0b00011001#8, 0x34#8, 0x12#8] = .ok (.oraAby 0x1234#16) [] ∧
    decode [0b00000001#8, 0x42#8] = .ok (.oraIzx 0x42#8) [] ∧
    decode [0b00010001#8, 0x42#8] = .ok (.oraIzy 0x42#8) [] := by
  decide

/-- R204, the rows' example bytes. -/
theorem test_decode_EOR :
    decode [0b01001001#8, 0x42#8] = .ok (.eorImm 0x42#8) [] ∧
    decode [0b01000101#8, 0x42#8] = .ok (.eorZp 0x42#8) [] ∧
    decode [0b01010101#8, 0x42#8] = .ok (.eorZpx 0x42#8) [] ∧
    decode [0b01001101#8, 0x34#8, 0x12#8] = .ok (.eorAbs 0x1234#16) [] ∧
    decode [0b01011101#8, 0x34#8, 0x12#8] = .ok (.eorAbx 0x1234#16) [] ∧
    decode [0b01011001#8, 0x34#8, 0x12#8] = .ok (.eorAby 0x1234#16) [] ∧
    decode [0b01000001#8, 0x42#8] = .ok (.eorIzx 0x42#8) [] ∧
    decode [0b01010001#8, 0x42#8] = .ok (.eorIzy 0x42#8) [] := by
  decide

/-- R205, the rows' example bytes. -/
theorem test_decode_BIT :
    decode [0b00100100#8, 0x42#8] = .ok (.bitZp 0x42#8) [] ∧
    decode [0b00101100#8, 0x34#8, 0x12#8] = .ok (.bitAbs 0x1234#16) [] := by
  decide

/-- R206, the rows' example bytes. -/
theorem test_decode_CMP :
    decode [0b11001001#8, 0x42#8] = .ok (.cmpImm 0x42#8) [] ∧
    decode [0b11000101#8, 0x42#8] = .ok (.cmpZp 0x42#8) [] ∧
    decode [0b11010101#8, 0x42#8] = .ok (.cmpZpx 0x42#8) [] ∧
    decode [0b11001101#8, 0x34#8, 0x12#8] = .ok (.cmpAbs 0x1234#16) [] ∧
    decode [0b11011101#8, 0x34#8, 0x12#8] = .ok (.cmpAbx 0x1234#16) [] ∧
    decode [0b11011001#8, 0x34#8, 0x12#8] = .ok (.cmpAby 0x1234#16) [] ∧
    decode [0b11000001#8, 0x42#8] = .ok (.cmpIzx 0x42#8) [] ∧
    decode [0b11010001#8, 0x42#8] = .ok (.cmpIzy 0x42#8) [] := by
  decide

/-- R207, the rows' example bytes. -/
theorem test_decode_CPX :
    decode [0b11100000#8, 0x42#8] = .ok (.cpxImm 0x42#8) [] ∧
    decode [0b11100100#8, 0x42#8] = .ok (.cpxZp 0x42#8) [] ∧
    decode [0b11101100#8, 0x34#8, 0x12#8] = .ok (.cpxAbs 0x1234#16) [] := by
  decide

/-- R208, the rows' example bytes. -/
theorem test_decode_CPY :
    decode [0b11000000#8, 0x42#8] = .ok (.cpyImm 0x42#8) [] ∧
    decode [0b11000100#8, 0x42#8] = .ok (.cpyZp 0x42#8) [] ∧
    decode [0b11001100#8, 0x34#8, 0x12#8] = .ok (.cpyAbs 0x1234#16) [] := by
  decide

/-- R210, the rows' example bytes. -/
theorem test_decode_ASL :
    decode [0b00001010#8] = .ok .aslAcc [] ∧
    decode [0b00000110#8, 0x42#8] = .ok (.aslZp 0x42#8) [] ∧
    decode [0b00010110#8, 0x42#8] = .ok (.aslZpx 0x42#8) [] ∧
    decode [0b00001110#8, 0x34#8, 0x12#8] = .ok (.aslAbs 0x1234#16) [] ∧
    decode [0b00011110#8, 0x34#8, 0x12#8] = .ok (.aslAbx 0x1234#16) [] := by
  decide

/-- R211, the rows' example bytes. -/
theorem test_decode_LSR :
    decode [0b01001010#8] = .ok .lsrAcc [] ∧
    decode [0b01000110#8, 0x42#8] = .ok (.lsrZp 0x42#8) [] ∧
    decode [0b01010110#8, 0x42#8] = .ok (.lsrZpx 0x42#8) [] ∧
    decode [0b01001110#8, 0x34#8, 0x12#8] = .ok (.lsrAbs 0x1234#16) [] ∧
    decode [0b01011110#8, 0x34#8, 0x12#8] = .ok (.lsrAbx 0x1234#16) [] := by
  decide

/-- R212, the rows' example bytes. -/
theorem test_decode_ROL :
    decode [0b00101010#8] = .ok .rolAcc [] ∧
    decode [0b00100110#8, 0x42#8] = .ok (.rolZp 0x42#8) [] ∧
    decode [0b00110110#8, 0x42#8] = .ok (.rolZpx 0x42#8) [] ∧
    decode [0b00101110#8, 0x34#8, 0x12#8] = .ok (.rolAbs 0x1234#16) [] ∧
    decode [0b00111110#8, 0x34#8, 0x12#8] = .ok (.rolAbx 0x1234#16) [] := by
  decide

/-- R213, the rows' example bytes. -/
theorem test_decode_ROR :
    decode [0b01101010#8] = .ok .rorAcc [] ∧
    decode [0b01100110#8, 0x42#8] = .ok (.rorZp 0x42#8) [] ∧
    decode [0b01110110#8, 0x42#8] = .ok (.rorZpx 0x42#8) [] ∧
    decode [0b01101110#8, 0x34#8, 0x12#8] = .ok (.rorAbs 0x1234#16) [] ∧
    decode [0b01111110#8, 0x34#8, 0x12#8] = .ok (.rorAbx 0x1234#16) [] := by
  decide

/-- R214, the rows' example bytes. -/
theorem test_decode_INC :
    decode [0b11100110#8, 0x42#8] = .ok (.incZp 0x42#8) [] ∧
    decode [0b11110110#8, 0x42#8] = .ok (.incZpx 0x42#8) [] ∧
    decode [0b11101110#8, 0x34#8, 0x12#8] = .ok (.incAbs 0x1234#16) [] ∧
    decode [0b11111110#8, 0x34#8, 0x12#8] = .ok (.incAbx 0x1234#16) [] := by
  decide

/-- R215, the rows' example bytes. -/
theorem test_decode_DEC :
    decode [0b11000110#8, 0x42#8] = .ok (.decZp 0x42#8) [] ∧
    decode [0b11010110#8, 0x42#8] = .ok (.decZpx 0x42#8) [] ∧
    decode [0b11001110#8, 0x34#8, 0x12#8] = .ok (.decAbs 0x1234#16) [] ∧
    decode [0b11011110#8, 0x34#8, 0x12#8] = .ok (.decAbx 0x1234#16) [] := by
  decide

/-- R216, the rows' example bytes. -/
theorem test_decode_INX :
    decode [0b11101000#8] = .ok .inx [] := by
  decide

/-- R217, the rows' example bytes. -/
theorem test_decode_INY :
    decode [0b11001000#8] = .ok .iny [] := by
  decide

/-- R218, the rows' example bytes. -/
theorem test_decode_DEX :
    decode [0b11001010#8] = .ok .dex [] := by
  decide

/-- R219, the rows' example bytes. -/
theorem test_decode_DEY :
    decode [0b10001000#8] = .ok .dey [] := by
  decide

/-- R220, the rows' example bytes. -/
theorem test_decode_LDA :
    decode [0b10101001#8, 0x42#8] = .ok (.ldaImm 0x42#8) [] ∧
    decode [0b10100101#8, 0x42#8] = .ok (.ldaZp 0x42#8) [] ∧
    decode [0b10110101#8, 0x42#8] = .ok (.ldaZpx 0x42#8) [] ∧
    decode [0b10101101#8, 0x34#8, 0x12#8] = .ok (.ldaAbs 0x1234#16) [] ∧
    decode [0b10111101#8, 0x34#8, 0x12#8] = .ok (.ldaAbx 0x1234#16) [] ∧
    decode [0b10111001#8, 0x34#8, 0x12#8] = .ok (.ldaAby 0x1234#16) [] ∧
    decode [0b10100001#8, 0x42#8] = .ok (.ldaIzx 0x42#8) [] ∧
    decode [0b10110001#8, 0x42#8] = .ok (.ldaIzy 0x42#8) [] := by
  decide

/-- R221, the rows' example bytes. -/
theorem test_decode_LDX :
    decode [0b10100010#8, 0x42#8] = .ok (.ldxImm 0x42#8) [] ∧
    decode [0b10100110#8, 0x42#8] = .ok (.ldxZp 0x42#8) [] ∧
    decode [0b10110110#8, 0x42#8] = .ok (.ldxZpy 0x42#8) [] ∧
    decode [0b10101110#8, 0x34#8, 0x12#8] = .ok (.ldxAbs 0x1234#16) [] ∧
    decode [0b10111110#8, 0x34#8, 0x12#8] = .ok (.ldxAby 0x1234#16) [] := by
  decide

/-- R222, the rows' example bytes. -/
theorem test_decode_LDY :
    decode [0b10100000#8, 0x42#8] = .ok (.ldyImm 0x42#8) [] ∧
    decode [0b10100100#8, 0x42#8] = .ok (.ldyZp 0x42#8) [] ∧
    decode [0b10110100#8, 0x42#8] = .ok (.ldyZpx 0x42#8) [] ∧
    decode [0b10101100#8, 0x34#8, 0x12#8] = .ok (.ldyAbs 0x1234#16) [] ∧
    decode [0b10111100#8, 0x34#8, 0x12#8] = .ok (.ldyAbx 0x1234#16) [] := by
  decide

/-- R223, the rows' example bytes. -/
theorem test_decode_STA :
    decode [0b10000101#8, 0x42#8] = .ok (.staZp 0x42#8) [] ∧
    decode [0b10010101#8, 0x42#8] = .ok (.staZpx 0x42#8) [] ∧
    decode [0b10001101#8, 0x34#8, 0x12#8] = .ok (.staAbs 0x1234#16) [] ∧
    decode [0b10011101#8, 0x34#8, 0x12#8] = .ok (.staAbx 0x1234#16) [] ∧
    decode [0b10011001#8, 0x34#8, 0x12#8] = .ok (.staAby 0x1234#16) [] ∧
    decode [0b10000001#8, 0x42#8] = .ok (.staIzx 0x42#8) [] ∧
    decode [0b10010001#8, 0x42#8] = .ok (.staIzy 0x42#8) [] := by
  decide

/-- R224, the rows' example bytes. -/
theorem test_decode_STX :
    decode [0b10000110#8, 0x42#8] = .ok (.stxZp 0x42#8) [] ∧
    decode [0b10010110#8, 0x42#8] = .ok (.stxZpy 0x42#8) [] ∧
    decode [0b10001110#8, 0x34#8, 0x12#8] = .ok (.stxAbs 0x1234#16) [] := by
  decide

/-- R225, the rows' example bytes. -/
theorem test_decode_STY :
    decode [0b10000100#8, 0x42#8] = .ok (.styZp 0x42#8) [] ∧
    decode [0b10010100#8, 0x42#8] = .ok (.styZpx 0x42#8) [] ∧
    decode [0b10001100#8, 0x34#8, 0x12#8] = .ok (.styAbs 0x1234#16) [] := by
  decide

/-- R226, the rows' example bytes. -/
theorem test_decode_TAX :
    decode [0b10101010#8] = .ok .tax [] := by
  decide

/-- R227, the rows' example bytes. -/
theorem test_decode_TAY :
    decode [0b10101000#8] = .ok .tay [] := by
  decide

/-- R228, the rows' example bytes. -/
theorem test_decode_TSX :
    decode [0b10111010#8] = .ok .tsx [] := by
  decide

/-- R229, the rows' example bytes. -/
theorem test_decode_TXA :
    decode [0b10001010#8] = .ok .txa [] := by
  decide

/-- R230, the rows' example bytes. -/
theorem test_decode_TXS :
    decode [0b10011010#8] = .ok .txs [] := by
  decide

/-- R231, the rows' example bytes. -/
theorem test_decode_TYA :
    decode [0b10011000#8] = .ok .tya [] := by
  decide

/-- R232, the rows' example bytes. -/
theorem test_decode_PHA :
    decode [0b01001000#8] = .ok .pha [] := by
  decide

/-- R233, the rows' example bytes. -/
theorem test_decode_PHP :
    decode [0b00001000#8] = .ok .php [] := by
  decide

/-- R234, the rows' example bytes. -/
theorem test_decode_PLA :
    decode [0b01101000#8] = .ok .pla [] := by
  decide

/-- R235, the rows' example bytes. -/
theorem test_decode_PLP :
    decode [0b00101000#8] = .ok .plp [] := by
  decide

/-- R240, the rows' example bytes. -/
theorem test_decode_JMP :
    decode [0b01001100#8, 0x34#8, 0x12#8] = .ok (.jmpAbs 0x1234#16) [] ∧
    decode [0b01101100#8, 0x34#8, 0x12#8] = .ok (.jmpInd 0x1234#16) [] := by
  decide

/-- R241, the rows' example bytes. -/
theorem test_decode_JSR :
    decode [0b00100000#8, 0x34#8, 0x12#8] = .ok (.jsrAbs 0x1234#16) [] := by
  decide

/-- R242, the rows' example bytes. -/
theorem test_decode_RTS :
    decode [0b01100000#8] = .ok .rts [] := by
  decide

/-- R243, the rows' example bytes. -/
theorem test_decode_RTI :
    decode [0b01000000#8] = .ok .rti [] := by
  decide

/-- R244, the rows' example bytes. -/
theorem test_decode_BRK :
    decode [0b00000000#8] = .ok .brk [] := by
  decide

/-- R245, the rows' example bytes. -/
theorem test_decode_NOP :
    decode [0b11101010#8] = .ok .nop [] := by
  decide

/-- R246, the rows' example bytes. -/
theorem test_decode_BCC :
    decode [0b10010000#8, 0x42#8] = .ok (.bccRel 0x42#8) [] := by
  decide

/-- R247, the rows' example bytes. -/
theorem test_decode_BCS :
    decode [0b10110000#8, 0x42#8] = .ok (.bcsRel 0x42#8) [] := by
  decide

/-- R248, the rows' example bytes. -/
theorem test_decode_BEQ :
    decode [0b11110000#8, 0x42#8] = .ok (.beqRel 0x42#8) [] := by
  decide

/-- R249, the rows' example bytes. -/
theorem test_decode_BMI :
    decode [0b00110000#8, 0x42#8] = .ok (.bmiRel 0x42#8) [] := by
  decide

/-- R250, the rows' example bytes. -/
theorem test_decode_BNE :
    decode [0b11010000#8, 0x42#8] = .ok (.bneRel 0x42#8) [] := by
  decide

/-- R251, the rows' example bytes. -/
theorem test_decode_BPL :
    decode [0b00010000#8, 0x42#8] = .ok (.bplRel 0x42#8) [] := by
  decide

/-- R252, the rows' example bytes. -/
theorem test_decode_BVC :
    decode [0b01010000#8, 0x42#8] = .ok (.bvcRel 0x42#8) [] := by
  decide

/-- R253, the rows' example bytes. -/
theorem test_decode_BVS :
    decode [0b01110000#8, 0x42#8] = .ok (.bvsRel 0x42#8) [] := by
  decide

/-- R254, the rows' example bytes. -/
theorem test_decode_CLC :
    decode [0b00011000#8] = .ok .clc [] := by
  decide

/-- R255, the rows' example bytes. -/
theorem test_decode_CLD :
    decode [0b11011000#8] = .ok .cld [] := by
  decide

/-- R256, the rows' example bytes. -/
theorem test_decode_CLI :
    decode [0b01011000#8] = .ok .cli [] := by
  decide

/-- R257, the rows' example bytes. -/
theorem test_decode_CLV :
    decode [0b10111000#8] = .ok .clv [] := by
  decide

/-- R258, the rows' example bytes. -/
theorem test_decode_SEC :
    decode [0b00111000#8] = .ok .sec [] := by
  decide

/-- R259, the rows' example bytes. -/
theorem test_decode_SED :
    decode [0b11111000#8] = .ok .sed [] := by
  decide

/-- R260, the rows' example bytes. -/
theorem test_decode_SEI :
    decode [0b01111000#8] = .ok .sei [] := by
  decide

/-- R108, R172: every undocumented byte decodes to the fallback, one byte long. -/
theorem test_decode_unknown :
    ∀ b : Byte, undocumented.contains b.toNat = true → decode [b, 0xA9#8] = .ok (.unknown b) [0xA9#8] := by
  decide

/-- V6.9, V6.17: an instruction whose bytes are not all there. -/
theorem test_decode_rejects :
    decode [] = .reject .noBytes ∧ decode [0x20#8] = .reject (.truncated 0x20#8 3 1) ∧
    decode [0x4C#8, 0x00#8] = .reject (.truncated 0x4C#8 3 2) := by decide

/-- The table's numbering: bit 0 is the least significant bit of the first byte; bits above `nbits` are 0. -/
theorem test_table_word :
    decodeTableWord 24 0x12346D = some (.adcAbs 0x1234#16) ∧ decodeTableWord 8 0xFFFFA9 = some (.ldaImm 0#8) ∧
    decodeTableWord 8 0x02 = some (.unknown 0x02#8) := by decide

/-! ## The walk's step -/

/-- S1: `A9 42` gives LDA IMM 2 0x42, and the walk ends. -/
theorem test_step_lda :
    stepsTo (walking [0xA9, 0x42] 0 2) (fun t =>
      t.ir == some ⟨.LDA, .IMM, 2, .u8 0x42, 0, 0xA9⟩ && t.st == .ok && t.phase == .idle && t.dis.off == some 2 &&
      t.dis.count == 1) = true := by decide

/-- S2: `4C 00 80` gives JMP ABS 3 0x8000, low byte first; the jump is not followed. -/
theorem test_step_jmp :
    stepsTo (walking [0x4C, 0x00, 0x80, 0xEA] 0 4) (fun t =>
      t.out == [⟨.JMP, .ABS, 3, .u16 0x8000, 0, 0x4C⟩] && t.phase == .disRun && t.dis.off == some 3) = true := by decide

/-- V6.15: the relative operand stays the raw byte. -/
theorem test_step_bne :
    stepsTo (walking [0xD0, 0xFD] 0 2) (fun t => t.ir == some ⟨.BNE, .REL, 2, .u8 0xFD, 0, 0xD0⟩) = true := by decide

/-- V6.16: BRK has length 1. -/
theorem test_step_brk :
    stepsTo (walking [0x00, 0x00, 0x00] 0 3) (fun t =>
      t.ir == some ⟨.BRK, .IMP, 1, .absent, 0, 0x00⟩ && t.dis.off == some 1) = true := by decide

/-- V6.18: a single unknown byte is a complete walk. -/
theorem test_step_unknown :
    stepsTo (walking [0xFF] 0 1) (fun t =>
      t.out == [⟨.unknown, .unknown, 1, .absent, 0, 0xFF⟩] && t.st == .ok && t.dis.off == some 1) = true := by decide

/-- V6.8: `BD 00` at 2 with `high = 4`: TruncatedInstruction(2, 0xBD, 3, 2), nothing emitted. -/
theorem test_step_truncated :
    stepsTo (walking [0xA2, 0x00, 0xBD, 0x00] 2 4) (fun t =>
      t.st == .truncatedInstruction 2 0xBD 3 2 && t.phase == .idle && t.out == [] && t.dis.off == some 2 && t.ir == none)
      = true := by decide

/-- V6.7: the bytes exist in the buffer but lie outside the range. -/
theorem test_step_truncated_by_range :
    stepsTo (walking [0xA9, 0x42, 0x60] 0 1) (fun t => t.st == .truncatedInstruction 0 0xA9 2 1) = true := by decide

/-- The word the host places is the next instruction (R220). -/
theorem test_fetch_word :
    stepsTo (State.reset.withFetchWord 16 0x42A9) (fun t => t.ir == some ⟨.LDA, .IMM, 2, .u8 0x42, 0, 0xA9⟩) = true := by
  decide

/-! ## Whole walks, as the pure function -/

/-- V5.3, the walk of 43_isa_arith_logic.md. -/
theorem test_walk_arith_logic :
    listing ([0x69#8, 0x00#8, 0xE9#8, 0xFF#8, 0x2D#8, 0xFF#8, 0xFF#8, 0x1D#8, 0xA9#8, 0x42#8, 0x59#8, 0x02#8] ++
      [0x03#8, 0x41#8, 0x4C#8, 0x31#8, 0x00#8, 0x24#8, 0xEA#8, 0x2C#8, 0x00#8, 0x80#8, 0xC9#8, 0x60#8] ++
      [0xE0#8, 0x00#8, 0xEC#8, 0x34#8, 0x12#8, 0xC0#8, 0xFF#8, 0xC4#8, 0x02#8, 0xCC#8, 0x60#8, 0x60#8]) =
      (["ADC IMM 00", "SBC IMM FF", "AND ABS FFFF", "ORA ABX 42A9", "EOR ABY 0302", "EOR IZX 4C"] ++
      ["AND IZY 00", "BIT ZP EA", "BIT ABS 8000", "CMP IMM 60", "CPX IMM 00", "CPX ABS 1234"] ++
      ["CPY IMM FF", "CPY ZP 02", "CPY ABS 6060"], .ok) := by
  decide

/-- V5.3, the walk of 44_isa_shift_incdec.md. -/
theorem test_walk_shift_incdec :
    listing ([0x0A#8, 0x06#8, 0x0A#8, 0x16#8, 0xFF#8, 0x0E#8, 0x00#8, 0x02#8, 0x1E#8, 0xFF#8, 0xFF#8, 0x4A#8] ++
      [0x46#8, 0x4A#8, 0x6A#8, 0x2A#8, 0x3E#8, 0x6A#8, 0x2A#8, 0x66#8, 0x00#8, 0xE6#8, 0xE8#8, 0xF6#8] ++
      [0xC8#8, 0xEE#8, 0xCA#8, 0x88#8, 0xDE#8, 0x00#8, 0xFF#8, 0xC6#8, 0x02#8, 0xCE#8, 0xFF#8, 0x00#8] ++
      [0xE8#8, 0xC8#8, 0xCA#8, 0x88#8]) =
      (["ASL ACC", "ASL ZP 0A", "ASL ZPX FF", "ASL ABS 0200", "ASL ABX FFFF", "LSR ACC"] ++
      ["LSR ZP 4A", "ROR ACC", "ROL ACC", "ROL ABX 2A6A", "ROR ZP 00", "INC ZP E8"] ++
      ["INC ZPX C8", "INC ABS 88CA", "DEC ABX FF00", "DEC ZP 02", "DEC ABS 00FF", "INX IMP"] ++
      ["INY IMP", "DEX IMP", "DEY IMP"], .ok) := by
  decide

/-- V5.3, the walk of 45_isa_load_store_transfer.md. -/
theorem test_walk_load_store_transfer :
    listing ([0xA9#8, 0xA9#8, 0xA5#8, 0x00#8, 0xB5#8, 0xFF#8, 0xAD#8, 0x00#8, 0x20#8, 0xBD#8, 0xFF#8, 0xFF#8] ++
      [0xB9#8, 0x4C#8, 0x00#8, 0xA1#8, 0x02#8, 0xB1#8, 0xFE#8, 0xA2#8, 0xFF#8, 0xA6#8, 0xA2#8, 0xB6#8] ++
      [0x10#8, 0xAE#8, 0x34#8, 0x12#8, 0xBE#8, 0x00#8, 0x03#8, 0xA0#8, 0x00#8, 0xA4#8, 0xA0#8, 0xB4#8] ++
      [0x20#8, 0xAC#8, 0x02#8, 0x40#8, 0xBC#8, 0x00#8, 0x04#8, 0x85#8, 0x85#8, 0x95#8, 0x00#8, 0x8D#8] ++
      [0x15#8, 0x40#8, 0x9D#8, 0x00#8, 0x02#8, 0x99#8, 0xFF#8, 0x01#8, 0x81#8, 0xFC#8, 0x91#8, 0xFE#8] ++
      [0x86#8, 0x00#8, 0x96#8, 0xFF#8, 0x8E#8, 0x00#8, 0x20#8, 0x84#8, 0x10#8, 0x94#8, 0x20#8, 0x8C#8] ++
      [0x17#8, 0x40#8, 0xAA#8, 0xA8#8, 0xBA#8, 0x8A#8, 0x9A#8, 0x98#8, 0x48#8, 0x08#8, 0x68#8, 0x28#8]) =
      (["LDA IMM A9", "LDA ZP 00", "LDA ZPX FF", "LDA ABS 2000", "LDA ABX FFFF", "LDA ABY 004C"] ++
      ["LDA IZX 02", "LDA IZY FE", "LDX IMM FF", "LDX ZP A2", "LDX ZPY 10", "LDX ABS 1234"] ++
      ["LDX ABY 0300", "LDY IMM 00", "LDY ZP A0", "LDY ZPX 20", "LDY ABS 4002", "LDY ABX 0400"] ++
      ["STA ZP 85", "STA ZPX 00", "STA ABS 4015", "STA ABX 0200", "STA ABY 01FF", "STA IZX FC"] ++
      ["STA IZY FE", "STX ZP 00", "STX ZPY FF", "STX ABS 2000", "STY ZP 10", "STY ZPX 20"] ++
      ["STY ABS 4017", "TAX IMP", "TAY IMP", "TSX IMP", "TXA IMP", "TXS IMP"] ++
      ["TYA IMP", "PHA IMP", "PHP IMP", "PLA IMP", "PLP IMP"], .ok) := by
  decide

/-- V5.3, the walk of 46_isa_control_flags.md. -/
theorem test_walk_control_flags :
    listing ([0x4C#8, 0x00#8, 0x80#8, 0x6C#8, 0xFC#8, 0xFF#8, 0x20#8, 0x03#8, 0x80#8, 0x60#8, 0x40#8, 0x00#8] ++
      [0xEA#8, 0x90#8, 0x00#8, 0xB0#8, 0x7F#8, 0xF0#8, 0x80#8, 0x30#8, 0xFF#8, 0xD0#8, 0xFD#8, 0x10#8] ++
      [0xFE#8, 0x50#8, 0x02#8, 0x70#8, 0x60#8, 0x18#8, 0xD8#8, 0x58#8, 0xB8#8, 0x38#8, 0xF8#8, 0x78#8]) =
      (["JMP ABS 8000", "JMP IND FFFC", "JSR ABS 8003", "RTS IMP", "RTI IMP", "BRK IMP"] ++
      ["NOP IMP", "BCC REL 00", "BCS REL 7F", "BEQ REL 80", "BMI REL FF", "BNE REL FD"] ++
      ["BPL REL FE", "BVC REL 02", "BVS REL 60", "CLC IMP", "CLD IMP", "CLI IMP"] ++
      ["CLV IMP", "SEC IMP", "SED IMP", "SEI IMP"], .ok) := by
  decide

/-- V6.1, V6.5, V6.9, V6.10: the records' offsets and the status. -/
theorem test_walk_ranges :
    (sweepRange [0xA9, 0x42, 0x8D, 0x00, 0x40, 0x60] 0 6).1.map Record.offset = [0, 2, 5] ∧
    (sweepRange [0x02, 0xFF, 0xA9, 0x00, 0x03, 0x60] 0 6).1.map Record.offset = [0, 1, 2, 4, 5] ∧
    (sweepRange [0x60, 0x4C] 0 2).2 = .truncatedInstruction 1 0x4C 3 1 ∧
    (sweepRange [0x60, 0x4C, 0x00] 0 3).2 = .truncatedInstruction 1 0x4C 3 2 := by decide

/-- P6: the same bytes from two starting offsets. -/
theorem test_walk_from_low :
    (sweepRange [0xA9, 0x4C, 0x00, 0x80] 1 4).1.map listingLine = ["JMP ABS 8000"] ∧
    listing [0xA9, 0x4C, 0x00, 0x80] = (["LDA IMM 4C", "BRK IMP", "unknown unknown"], .ok) := by decide

/-- R31's example (V6, reported addresses): base 0xFFFE. -/
theorem test_reported_address :
    [0, 1, 2].map (reportedAddr 0xFFFE#16) = [0xFFFE, 0xFFFF, 0x10000] ∧ addr16 0x10000 = 0#16 ∧
    addrWraps 0x10000 = true ∧ addrWraps 0xFFFF = false := by decide

/-! ## `disassemble` -/

/-- V6.6: `high` beyond the buffer. -/
theorem test_disassemble_out_of_bounds :
    stepsTo (asking {} (.disassemble [0xA9, 0x42, 0x60] 0 none (some 4))) (fun t =>
      t.st == .outOfBounds 0 4 3 && t.phase == .idle && t.out == [] && t.dis.count == 0) = true := by decide

/-- V6.4, V6.2: empty ranges end `OK` at once. -/
theorem test_disassemble_empty :
    stepsTo (asking {} (.disassemble [0xA9, 0x42, 0x60] 0 (some 5) (some 2))) (fun t =>
      t.st == .ok && t.phase == .idle && t.dis.off == some 5 && t.dis.count == 0) = true ∧
    stepsTo (asking {} (.disassemble [] 0 none none)) (fun t =>
      t.st == .ok && t.phase == .idle && t.dis.off == some 0) = true := by decide

/-- R272: acceptance starts at `low`; the defaults are the entire buffer. -/
theorem test_disassemble_starts :
    stepsTo (asking {} (.disassemble [0xEA, 0xEA] 0x8000 none none)) (fun t =>
      t.phase == .disRun && t.dis == ⟨some 0, some 0, some 2, some 0x8000, 0⟩ && t.out == []) = true := by decide

/-- R286, U16, U17. -/
theorem test_requests_refused :
    refuses (asking { truncPolicy := .emitPartial } (.disassemble [0xEA] 0 none none)) .emitPartial = true ∧
    refuses (asking { brkLen := 2 } (.analyze [] "x")) (.brkLength 2) = true ∧
    refuses (asking { maxBufLen := some 2 } (.decodeHeader [1, 2, 3])) (.bufferTooLong 3 2) = true := by decide

/-! ## The cursor -/

/-- The buffer of V1. -/
def cursorAt (pos : Nat) : Cursor := { buf := Memory.ofBytes [0x34, 0x12, 0x41, 0x00, 0x42, 0x00, 0x00, 0xFF], pos := pos }

/-- Value and position of a cursor operation's result. -/
def cursorOk {α : Type} [DecidableEq α] (r : EStateM.Result Status Cursor α) (v : α) (pos : Nat) : Bool :=
  match r with
  | .ok w c => decide (w = v) && decide (c.pos = pos)
  | .error _ _ => false

/-- Error and position of a cursor operation's result. -/
def cursorErr {α : Type} (r : EStateM.Result Status Cursor α) (e : Status) (pos : Nat) : Bool :=
  match r with
  | .ok _ _ => false
  | .error f c => decide (f = e) && decide (c.pos = pos)

/-- V1, rows 2 to 9. -/
theorem test_cursor_v1 :
    cursorOk (readU16 (cursorAt 0)) 0x1234#16 2 = true ∧
    cursorOk (readText 5 (cursorAt 2)) [0x41#8, 0x00#8, 0x42#8] 7 = true ∧
    cursorErr (readU16 (cursorAt 7)) (.outOfBounds 7 2 8) 7 = true ∧
    cursorOk (readU8 (cursorAt 7)) 0xFF#8 8 = true ∧
    cursorOk (skip 0 (cursorAt 8)) () 8 = true ∧
    cursorOk (readRaw 0 (cursorAt 8)) [] 8 = true ∧
    cursorErr (skip 1 (cursorAt 8)) (.outOfBounds 8 1 8) 8 = true ∧
    cursorErr (readU8 (cursorAt 8)) (.outOfBounds 8 1 8) 8 = true := by decide

/-- V1, text on a fresh cursor: all nulls, no null, a leading null. -/
theorem test_cursor_text :
    trimNulls [0, 0, 0, 0] = [] ∧ trimNulls [0x41, 0x42, 0x43, 0x44] = [0x41, 0x42, 0x43, 0x44] ∧
    trimNulls [0x00, 0x41, 0x00, 0x00] = [0x00, 0x41] := by decide

/-! ## `decode_header` -/

/-- V3.1. -/
theorem test_header_v31 : headerOf {} v31 = some v31Header := by decide

/-- V3.1 the other way (S7). -/
theorem test_header_encode_v31 : encodeHeader v31Header = v31 := by decide

/-- V3.2, the flags byte: `pal_mode`, `dual_mode`, PAL?, `ntsc_mode`. -/
theorem test_header_flags :
    ([0x00, 0x01, 0x02, 0x03, 0xFC, 0xFD, 0xFE, 0xFF, 0x04, 0x80].map fun f =>
      (headerOf {} (headerBytes 0x1A 0x00 0x80 f 0x00)).map fun h =>
        (h.palMode, h.dualMode, decide (h.tvStandard = .PAL), h.ntscMode)) =
      [some (false, false, false, true), some (true, false, true, false), some (false, true, false, true),
       some (true, true, false, true), some (false, false, false, true), some (true, false, true, false),
       some (false, true, false, true), some (true, true, false, true), some (false, false, false, true),
       some (false, false, false, true)] := by decide

/-- V3.3, the expansion byte: the chips of bits 0 to 5 in order. -/
theorem test_header_expansion :
    ([0x00, 0x01, 0x02, 0x04, 0x08, 0x10, 0x20, 0xC0, 0x15, 0x2A].map fun e =>
      (headerOf {} (headerBytes 0x1A 0x00 0x80 0x00 e)).map fun h =>
        [h.vrc6, h.vrc7, h.fds, h.mmc5, h.namco106, h.fme07]) =
      [some [false, false, false, false, false, false], some [true, false, false, false, false, false],
       some [false, true, false, false, false, false], some [false, false, true, false, false, false],
       some [false, false, false, true, false, false], some [false, false, false, false, true, false],
       some [false, false, false, false, false, true], some [false, false, false, false, false, false],
       some [true, false, true, false, true, false], some [false, true, false, true, false, true]] := by decide

/-- V3.4: a bad magic is a mark by default and an error under strict validation. -/
theorem test_header_magic :
    stepsTo (asking {} (.decodeHeader (headerBytes 0x00 0x00 0x80 0 0))) (fun t =>
      t.st == .ok && t.hdr.any (fun h => !h.valid && h.magic == [0x4E, 0x45, 0x53, 0x4D, 0x00])) = true ∧
    stepsTo (asking { strictMagic := true } (.decodeHeader (headerBytes 0x00 0x00 0x80 0 0))) (fun t =>
      t.st == .invalidMagic [0x4E, 0x45, 0x53, 0x4D, 0x00] && t.hdr == none) = true := by decide

/-- V3.4, V8.3: 127 bytes; the earlier header is no longer readable. -/
theorem test_header_short :
    stepsTo { asking {} (.decodeHeader (v31.take 127)) with hdr := some v31Header } (fun t =>
      t.st == .truncatedInput 127 && t.hdr == none && t.cur == none) = true := by decide

/-! ## `analyze` -/

/-- V7.2, V7.4: the fields for an empty and for a clipped code part. -/
theorem test_analyze_fields :
    stepsTo (asking {} (.analyze v31 "tune")) (fun t =>
      t.tr.name == some "tune" && t.tr.codeSize == some 0 && t.tr.codeEmpty == some true &&
      t.tr.lastCodeAddr == none && t.tr.addrOverflow == some false && t.job == .analyzeDue && !t.tr.present) = true ∧
    stepsTo (asking { clipTo64k := true } (.analyze (headerBytes 0x1A 0xFF 0xFF 0 0 ++ [0xEA, 0xEA]) "t")) (fun t =>
      t.tr.codeSize == some 2 && t.tr.lastCodeAddr == some 0x10000 && t.tr.addrOverflow == some true &&
      t.tr.clipped == some true && t.tr.dropped == some 1 && t.input.code.bytes == [0xEA]) = true := by decide

/-- V7.13, V7.15, V7.16: deferred, bad magic under strict validation, short file. -/
theorem test_analyze_ends :
    stepsTo (asking { deferDisasm := true } (.analyze (v31 ++ [0xA9, 0x42, 0x8D, 0x00]) "t")) (fun t =>
      t.st == .ok && t.tr.present && t.tr.deferred == some true && t.tr.codeSize == some 4 &&
      t.tr.lastCodeAddr == some 0x8003 && t.tr.rawCode == some [0xA9, 0x42, 0x8D, 0x00] && t.job == .noCommand) = true ∧
    stepsTo (asking { strictMagic := true } (.analyze (List.replicate 5 0 ++ v31.drop 5 ++ [0x60]) "t")) (fun t =>
      t.st == .invalidMagic [0, 0, 0, 0, 0] && t.hdr == none && !t.tr.present && t.job == .noCommand) = true ∧
    stepsTo (asking {} (.analyze (v31.take 100) "t")) (fun t =>
      t.st == .truncatedInput 100 && t.hdr == none && !t.tr.present) = true := by decide

/-- P7, stage 4: the disassembly stage of `analyze` is accepted at the header's load address. -/
theorem test_analyze_stage :
    stepsTo { State.reset with
        hdr := some v31Header, job := .analyzeDue, tr := tuneFields {} "tune" 0x8000 [0x4C, 0x03, 0x80],
        input := { State.reset.input with code := Memory.ofBytes [0x4C, 0x03, 0x80] } } (fun t =>
      t.phase == .disRun && t.job == .analyze && t.dis == ⟨some 0, some 0, some 3, some 0x8000, 0⟩) = true := by decide

/-- R291: the last step of `analyze` completes the tune record. -/
theorem test_analyze_completes :
    stepsTo { walking [0x60] 0 1 with job := .analyze } (fun t => t.tr.present && t.st == .ok && t.phase == .idle) = true := by
  decide

/-! ## Reset -/

/-- R331: a reset during a walk. -/
theorem test_reset_event :
    stepsTo { walking [0xA9, 0x42] 0 2 with host := { requests := [], reset := true } } (fun t => t == State.reset) = true := by
  decide

/-! ## Witnesses: for each statement with hypotheses, values that meet them together -/

/-- What a row's two clauses assume. -/
def RowReady (s : State) (off high : Nat) (opc : Byte) (operand : Operand) : Prop :=
  s.runningAt off high ∧ off + (operand.bytes.length + 1) ≤ high ∧ s.host.reset = false ∧
  s.input.code.slice off (operand.bytes.length + 1) = opc :: operand.bytes

theorem rowReady (code : List Byte) {off high : Nat} {opc : Byte} {operand : Operand} (hlt : off < high)
    (hfit : off + (operand.bytes.length + 1) ≤ high)
    (hbytes : (Memory.ofBytes code).slice off (operand.bytes.length + 1) = opc :: operand.bytes) :
    RowReady (walking code off high) off high opc operand :=
  ⟨⟨rfl, rfl, rfl, hlt⟩, hfit, rfl, hbytes⟩

/-- In each pair the first instruction ends before `high`, the second at it. -/
theorem witness_ArithmeticLogicRows :
    RowReady (walking [0x69, 0x42, 0x6D, 0x34, 0x12] 0 5) 0 5 0x69 (.u8 0x42) ∧
    RowReady (walking [0x69, 0x42, 0x6D, 0x34, 0x12] 2 5) 2 5 0x6D (.u16 0x1234) :=
  ⟨rowReady _ (by decide) (by decide) (by decide), rowReady _ (by decide) (by decide) (by decide)⟩

theorem witness_BitCompareRows :
    RowReady (walking [0x24, 0xEA, 0xCC, 0x60, 0x60] 0 5) 0 5 0x24 (.u8 0xEA) ∧
    RowReady (walking [0x24, 0xEA, 0xCC, 0x60, 0x60] 2 5) 2 5 0xCC (.u16 0x6060) :=
  ⟨rowReady _ (by decide) (by decide) (by decide), rowReady _ (by decide) (by decide) (by decide)⟩

theorem witness_ShiftRotateRows :
    RowReady (walking [0x0A, 0x7E, 0xFF, 0xFF] 0 4) 0 4 0x0A .absent ∧
    RowReady (walking [0x0A, 0x7E, 0xFF, 0xFF] 1 4) 1 4 0x7E (.u16 0xFFFF) :=
  ⟨rowReady _ (by decide) (by decide) (by decide), rowReady _ (by decide) (by decide) (by decide)⟩

theorem witness_IncrementDecrementRows :
    RowReady (walking [0xE6, 0xE8, 0x88] 0 3) 0 3 0xE6 (.u8 0xE8) ∧
    RowReady (walking [0xE6, 0xE8, 0x88] 2 3) 2 3 0x88 .absent :=
  ⟨rowReady _ (by decide) (by decide) (by decide), rowReady _ (by decide) (by decide) (by decide)⟩

theorem witness_LoadRows :
    RowReady (walking [0xA9, 0xA9, 0xBC, 0x00, 0x04] 0 5) 0 5 0xA9 (.u8 0xA9) ∧
    RowReady (walking [0xA9, 0xA9, 0xBC, 0x00, 0x04] 2 5) 2 5 0xBC (.u16 0x0400) :=
  ⟨rowReady _ (by decide) (by decide) (by decide), rowReady _ (by decide) (by decide) (by decide)⟩

theorem witness_StoreRows :
    RowReady (walking [0x85, 0x85, 0x8C, 0x17, 0x40] 0 5) 0 5 0x85 (.u8 0x85) ∧
    RowReady (walking [0x85, 0x85, 0x8C, 0x17, 0x40] 2 5) 2 5 0x8C (.u16 0x4017) :=
  ⟨rowReady _ (by decide) (by decide) (by decide), rowReady _ (by decide) (by decide) (by decide)⟩

theorem witness_TransferStackRows :
    RowReady (walking [0xAA, 0x28] 0 2) 0 2 0xAA .absent ∧ RowReady (walking [0xAA, 0x28] 1 2) 1 2 0x28 .absent :=
  ⟨rowReady _ (by decide) (by decide) (by decide), rowReady _ (by decide) (by decide) (by decide)⟩

theorem witness_JumpReturnBreakRows :
    RowReady (walking [0x4C, 0x00, 0x80, 0x00] 0 4) 0 4 0x4C (.u16 0x8000) ∧
    RowReady (walking [0x4C, 0x00, 0x80, 0x00] 3 4) 3 4 0x00 .absent :=
  ⟨rowReady _ (by decide) (by decide) (by decide), rowReady _ (by decide) (by decide) (by decide)⟩

theorem witness_BranchRows :
    RowReady (walking [0x90, 0x00, 0x70, 0x60] 0 4) 0 4 0x90 (.u8 0x00) ∧
    RowReady (walking [0x90, 0x00, 0x70, 0x60] 2 4) 2 4 0x70 (.u8 0x60) :=
  ⟨rowReady _ (by decide) (by decide) (by decide), rowReady _ (by decide) (by decide) (by decide)⟩

theorem witness_FlagInstructionRows :
    RowReady (walking [0x18, 0x78] 0 2) 0 2 0x18 .absent ∧ RowReady (walking [0x18, 0x78] 1 2) 1 2 0x78 .absent :=
  ⟨rowReady _ (by decide) (by decide) (by decide), rowReady _ (by decide) (by decide) (by decide)⟩

theorem witness_UnknownBytesFallBack :
    undocumented.contains (0xFF#8).toNat = true ∧ RowReady (walking [0x02, 0xFF] 0 2) 0 2 0x02 .absent ∧
    RowReady (walking [0x02, 0xFF] 1 2) 1 2 0xFF .absent :=
  ⟨by decide, rowReady _ (by decide) (by decide) (by decide), rowReady _ (by decide) (by decide) (by decide)⟩

theorem witness_UnknownBytesFallBack_next : ∃ t, exec (.unknown 0xFF#8) (walking [0xFF] 0 1) = .next t := ⟨_, rfl⟩

theorem witness_DecodeEncodeRoundTrip : Instr.wf (.unknown 0xFF#8) = true ∧ Instr.wf (.jmpInd 0xFFFF#16) = true := by
  decide

theorem witness_EncodeDecodeConsumes : decode [0x6C, 0xFC, 0xFF, 0x02] = .ok (.jmpInd 0xFFFC) [0x02] := by decide

/-- `[0x00].length + 1 < 3` and `3 ≤ [0x00, 0x80].length + 1`: the two clauses meet here. -/
theorem witness_DecodeLengthByRom :
    [0x00#8].length + 1 < (rom 0x20#8).len ∧ (rom 0x20#8).len ≤ [0x00#8, 0x80#8].length + 1 := by decide

theorem witness_RomPairsUnique :
    let explicit := (List.range 256).filter fun n => (rom (BitVec.ofNat 8 n)).mn ≠ .unknown
    (0x02#8).toNat ∉ explicit ∧ (0xA9#8).toNat ∈ explicit := by decide

/-- A documented byte's instruction that ends exactly at `high`. -/
theorem witness_OpcodeMapAgreesWithRom :
    (walking [0x65, 0x42] 0 2).runningAt 0 2 ∧ 0 + (rom 0x65).len ≤ 2 ∧ instrOf 0x65 0x42 0 = .adcZp 0x42 :=
  ⟨⟨rfl, rfl, rfl, by decide⟩, by decide, rfl⟩

theorem witness_StepRunsDecoded :
    let s := walking [0xA9, 0x42] 0 2
    s.host.reset = false ∧ s.runningAt 0 2 ∧ decode (fetchWindow s.input.code 0 2) = .ok (.ldaImm 0x42) [] :=
  ⟨rfl, ⟨rfl, rfl, rfl, by decide⟩, by decide⟩

/-- A three-byte instruction that ends exactly at `high`, and the same one byte short. -/
theorem witness_StepEmitsRomRecord :
    (let s := walking [0x4C, 0x00, 0x80] 0 3
     s.host.reset = false ∧ s.runningAt 0 3 ∧ s.input.code.read? 0 = some 0x4C ∧
      (∀ a, 0 ≤ a → a < 3 → (s.input.code.read? a).isSome = true) ∧ 0 + (rom 0x4C).len ≤ 3) ∧
    (let s := walking [0x4C, 0x00, 0x80] 0 2
     s.host.reset = false ∧ s.runningAt 0 2 ∧ s.input.code.read? 0 = some 0x4C ∧
      (∀ a, 0 ≤ a → a < 2 → (s.input.code.read? a).isSome = true) ∧ 2 < 0 + (rom 0x4C).len) :=
  ⟨⟨rfl, ⟨rfl, rfl, rfl, by decide⟩, by decide, fun a _ => by revert a; decide, by decide⟩,
    ⟨rfl, ⟨rfl, rfl, rfl, by decide⟩, by decide, fun a _ => by revert a; decide, by decide⟩⟩

/-- One byte short. -/
theorem witness_TruncatedInstructionRaised :
    let s := walking [0x4C, 0x00] 0 2
    s.host.reset = false ∧ s.runningAt 0 2 ∧ s.input.code.read? 0 = some 0x4C ∧ 2 < 0 + (rom 0x4C).len :=
  ⟨rfl, ⟨rfl, rfl, rfl, by decide⟩, by decide, by decide⟩

/-- The two clauses where they meet: `high` one byte short, and exactly at the end. -/
theorem witness_MeaningRaisesWhenTruncated :
    ((walking [0x4C, 0x00] 0 2).runningAt 0 2 ∧ 2 < 0 + (Instr.jmpAbs 0x8000).length) ∧
    ((walking [0x4C, 0x00, 0x80] 0 3).runningAt 0 3 ∧ 0 + (Instr.jmpAbs 0x8000).length ≤ 3) :=
  ⟨⟨⟨rfl, rfl, rfl, by decide⟩, by decide⟩, ⟨⟨rfl, rfl, rfl, by decide⟩, by decide⟩⟩

theorem witness_MeaningCompletesWhenFits :
    Instr.wf (.jmpAbs 0x8000) = true ∧ (walking [0x4C, 0x00, 0x80] 0 3).runningAt 0 3 ∧
    0 + (Instr.jmpAbs 0x8000).length ≤ 3 :=
  ⟨rfl, ⟨rfl, rfl, rfl, by decide⟩, by decide⟩

/-- One record emitted, and one instruction truncated. -/
theorem witness_InstructionFrame :
    (∃ t, exec (.jmpAbs 0x8000) (walking [0x4C, 0x00, 0x80] 0 3) = .next t) ∧
    (∃ t, exec (.jmpAbs 0x8000) (walking [0x4C, 0x00] 0 2) = .next t) := ⟨⟨_, rfl⟩, ⟨_, rfl⟩⟩

/-- The walk goes on, and the walk ends. -/
theorem witness_LinearSweepNeverFollows :
    (walking [0x60, 0x60] 0 2).runningAt 0 2 ∧ (walking [0x60, 0x60] 0 2).input.code.read? 0 = some 0x60 ∧
    stepsTo (walking [0x60, 0x60] 0 2) (fun t => t.phase == .disRun) = true ∧
    stepsTo (walking [0x60, 0x60] 1 2) (fun t => t.phase == .idle) = true :=
  ⟨⟨rfl, rfl, rfl, by decide⟩, by decide, by decide, by decide⟩

theorem witness_WalkWritesNoMemory :
    let s := walking [0x85, 0x10] 0 2
    s.host.reset = false ∧ s.phase = .disRun ∧ stepsTo s (fun _ => true) = true := ⟨rfl, rfl, by decide⟩

theorem witness_BaseDoesNotMatter :
    (walking [0x85, 0x10] 0 2).host.reset = false ∧ (walking [0x85, 0x10] 0 2).phase = .disRun := ⟨rfl, rfl⟩

/-- The other buffer differs at `high` and beyond. -/
theorem witness_BytesOutsideRangeDoNotMatter :
    let s := walking [0xA9, 0x42, 0x60] 0 2
    s.host.reset = false ∧ s.runningAt 0 2 ∧
    ∀ a, 0 ≤ a → a < 2 → a < 0 + 3 →
      (Memory.ofBytes [0xA9, 0x42, 0xFF, 0xFF]).read? a = s.input.code.read? a :=
  ⟨rfl, ⟨rfl, rfl, rfl, by decide⟩, fun a _ h _ => by
    have : a = 0 ∨ a = 1 := by omega
    rcases this with rfl | rfl <;> decide⟩

theorem witness_WalkRefinesSweep :
    let s := walking [0x60, 0x4C, 0x00] 0 3
    s.host.reset = false ∧ s.runningAt 0 3 ∧ s.input.code.wf = true ∧ 3 ≤ s.input.code.size :=
  ⟨rfl, ⟨rfl, rfl, rfl, by decide⟩, by decide, by decide⟩

/-- An empty range, a range that ends `OK` and one that ends truncated. -/
theorem witness_SweepCoversExactly :
    (0 ≤ 0 ∧ 0 ≤ ([] : List Byte).length) ∧ (0 ≤ 2 ∧ 2 ≤ [0xA9#8, 0x42#8].length) ∧
    (0 ≤ 1 ∧ 1 ≤ [0xA9#8, 0x42#8].length ∧ (sweepRange [0xA9#8, 0x42#8] 0 1).2 ≠ .ok) := by decide

/-- What every command statement assumes of the host, for the default configuration. -/
theorem asking_takes (cfg : Config) (cmd : Command) : (asking cfg cmd).takes ⟨cfg, cmd⟩ [] := ⟨rfl, rfl, rfl, rfl⟩

theorem default_accepts (len : Nat) : Config.accepts {} len := ⟨rfl, fun _ h => nomatch h⟩

/-- `high` at its last admitted value. -/
theorem witness_DisassembleCommandWhole :
    (asking {} (.disassemble [0xA9, 0x42] 0 none (some 2))).takes ⟨{}, .disassemble [0xA9, 0x42] 0 none (some 2)⟩ [] ∧
    Config.accepts {} [0xA9#8, 0x42#8].length ∧ (some 2).getD [0xA9#8, 0x42#8].length ≤ [0xA9#8, 0x42#8].length :=
  ⟨asking_takes _ _, default_accepts _, by decide⟩

theorem witness_DisassembleAcceptedStarts :
    (asking {} (.disassemble [0xA9, 0x42] 0 (some 1) none)).takes ⟨{}, .disassemble [0xA9, 0x42] 0 (some 1) none⟩ [] ∧
    Config.accepts {} [0xA9#8, 0x42#8].length ∧ none.getD [0xA9#8, 0x42#8].length ≤ [0xA9#8, 0x42#8].length ∧
    (some 1).getD 0 < none.getD [0xA9#8, 0x42#8].length :=
  ⟨asking_takes _ _, default_accepts _, by decide, by decide⟩

/-- The clauses at the values where they meet: `high = 4` and `high = 3` over three bytes; `low = high`. -/
theorem witness_DisassembleRangeChecked :
    (asking {} (.disassemble [0xA9, 0x42, 0x60] 0 none (some 4))).takes
      ⟨{}, .disassemble [0xA9, 0x42, 0x60] 0 none (some 4)⟩ [] ∧
    Config.accepts {} 3 ∧ [0xA9#8, 0x42#8, 0x60#8].length < (some 4).getD 3 ∧
    (some 3).getD 3 ≤ [0xA9#8, 0x42#8, 0x60#8].length ∧ (some 3).getD 3 ≤ (some 3).getD 0 :=
  ⟨asking_takes _ _, default_accepts _, by decide, by decide, by decide⟩

theorem witness_OutOfRangeLeavesDis :
    (asking {} (.disassemble [0xA9, 0x42, 0x60] 0 none (some 4))).takes
      ⟨{}, .disassemble [0xA9, 0x42, 0x60] 0 none (some 4)⟩ [] ∧
    Config.accepts {} 3 ∧ [0xA9#8, 0x42#8, 0x60#8].length < (some 4).getD 3 ∧
    stepsTo (asking {} (.disassemble [0xA9, 0x42, 0x60] 0 none (some 4))) (fun _ => true) = true :=
  ⟨asking_takes _ _, default_accepts _, by decide, by decide⟩

theorem witness_DecodeHeaderFields :
    (asking {} (.decodeHeader v31)).takes ⟨{}, .decodeHeader v31⟩ [] ∧
    (∀ max, Config.maxBufLen {} = some max → v31.length ≤ max) ∧
    (Config.strictMagic {} = false ∨ v31.take 5 = (Config.magic {}).toList) ∧ 128 ≤ v31.length :=
  ⟨asking_takes _ _, (fun _ h => nomatch h), .inl rfl, by decide⟩

theorem witness_DecodeHeaderFlags :
    (asking {} (.decodeHeader (headerBytes 0x1A 0 0x80 0xFD 0x95))).takes
      ⟨{}, .decodeHeader (headerBytes 0x1A 0 0x80 0xFD 0x95)⟩ [] ∧
    (∀ max, Config.maxBufLen {} = some max → (headerBytes 0x1A 0 0x80 0xFD 0x95).length ≤ max) ∧
    (Config.strictMagic {} = false ∨
      (headerBytes 0x1A 0 0x80 0xFD 0x95).take 5 = (Config.magic {}).toList) ∧
    128 ≤ (headerBytes 0x1A 0 0x80 0xFD 0x95).length ∧
    (headerBytes 0x1A 0 0x80 0xFD 0x95)[122]? = some 0xFD ∧ (headerBytes 0x1A 0 0x80 0xFD 0x95)[123]? = some 0x95 :=
  ⟨asking_takes _ _, (fun _ h => nomatch h), .inl rfl, by decide, by decide, by decide⟩

/-- A bad magic under strict validation, and without it. -/
theorem witness_MagicChecked :
    let b := headerBytes 0x00 0 0x80 0 0
    (asking { strictMagic := true } (.decodeHeader b)).takes ⟨{ strictMagic := true }, .decodeHeader b⟩ [] ∧
    (asking {} (.decodeHeader b)).takes ⟨{}, .decodeHeader b⟩ [] ∧ 128 ≤ b.length ∧
    b.take 5 ≠ (Config.magic {}).toList ∧ v31.take 5 = (Config.magic {}).toList :=
  ⟨asking_takes _ _, asking_takes _ _, by decide, by decide, by decide⟩

theorem witness_ShortHeaderTruncated :
    (asking {} (.decodeHeader (v31.take 127))).takes ⟨{}, .decodeHeader (v31.take 127)⟩ [] ∧
    (∀ max, Config.maxBufLen {} = some max → (v31.take 127).length ≤ max) ∧ (v31.take 127).length < 128 :=
  ⟨asking_takes _ _, (fun _ h => nomatch h), by decide⟩

/-- Two headers that differ in reserved bits, and in a byte after the header. -/
theorem witness_ReservedHeaderBitsIgnored :
    let b := headerBytes 0x1A 0 0x80 0xFC 0xC0
    let d := headerBytes 0x1A 0 0x80 0x00 0x00 ++ [0xFF]
    128 ≤ b.length ∧ 128 ≤ d.length ∧ (∀ n, n < 122 → b[n]? = d[n]?) ∧
    (∀ n, n < 2 → bitOf (b.getD 122 0) n = bitOf (d.getD 122 0) n) ∧
    (∀ n, n < 6 → bitOf (b.getD 123 0) n = bitOf (d.getD 123 0) n) := by decide

theorem witness_HeaderRoundTrip :
    v31Header.wf ∧ v31Header.valid = magicValid {} v31Header.magic ∧
    (Config.strictMagic {} = false ∨ v31Header.valid = true) := by
  refine ⟨⟨rfl, ?_, ?_, ?_, rfl, rfl, rfl⟩, by decide, .inl rfl⟩ <;> exact ⟨by decide, by decide⟩

/-- A clipped code part, and an empty one. -/
theorem witness_AnalyzeComputesTuneFields :
    let file := headerBytes 0x1A 0xFF 0xFF 0 0 ++ [0xEA, 0xEA]
    (asking { clipTo64k := true } (.analyze file "t")).takes ⟨{ clipTo64k := true }, .analyze file "t"⟩ [] ∧
    Config.accepts { clipTo64k := true } file.length ∧ 128 ≤ file.length ∧
    (Config.strictMagic { clipTo64k := true } = false ∨ file.take 5 = (Config.magic {}).toList) ∧
    Config.deferDisasm { clipTo64k := true } = false ∧ 0x10000 - (0xFF + 256 * 0xFF) < file.length - 128 ∧
    v31.length - 128 = 0 ∧ Config.deferDisasm { deferDisasm := true } = true :=
  ⟨asking_takes _ _, ⟨rfl, fun _ h => nomatch h⟩, by decide, .inl rfl, rfl, by decide, by decide, rfl⟩

theorem witness_AnalyzeDeferredKeepsBytes :
    let cfg : Config := { deferDisasm := true }
    (asking cfg (.analyze v31 "t")).takes ⟨cfg, .analyze v31 "t"⟩ [] ∧ cfg.accepts v31.length ∧ 128 ≤ v31.length ∧
    (cfg.strictMagic = false ∨ v31.take 5 = cfg.magic.toList) ∧ cfg.deferDisasm = true :=
  ⟨asking_takes _ _, ⟨rfl, fun _ h => nomatch h⟩, by decide, .inl rfl, rfl⟩

/-- A file one byte short, and a bad magic under strict validation. -/
theorem witness_AnalyzeHeaderErrorsEndIt :
    let cfg : Config := { strictMagic := true }
    let file := headerBytes 0x00 0 0x80 0 0
    (asking cfg (.analyze file "t")).takes ⟨cfg, .analyze file "t"⟩ [] ∧ cfg.accepts file.length ∧
    (v31.take 127).length < 128 ∧ 128 ≤ file.length ∧ cfg.strictMagic = true ∧ file.take 5 ≠ cfg.magic.toList :=
  ⟨asking_takes _ _, ⟨rfl, fun _ h => nomatch h⟩, by decide, by decide, rfl, by decide⟩

theorem witness_AnalyzeCommandWhole :
    let file := v31 ++ [0x60]
    (asking {} (.analyze file "t")).takes ⟨{}, .analyze file "t"⟩ [] ∧ Config.accepts {} file.length ∧
    128 ≤ file.length ∧ (Config.strictMagic {} = false ∨ file.take 5 = (Config.magic {}).toList) ∧
    Config.deferDisasm {} = false :=
  ⟨asking_takes _ _, default_accepts _, by decide, .inl rfl, rfl⟩

/-- Each clause: a named policy, a named length, a buffer one byte too long. -/
theorem witness_InadmissibleRequestsRefused :
    (asking { truncPolicy := .emitPartial } (.analyze [] "t")).takes
      ⟨{ truncPolicy := .emitPartial }, .analyze [] "t"⟩ [] ∧
    (Config.truncPolicy { brkLen := 2 } = .raise ∧ Config.brkLen { brkLen := 2 } ≠ 1) ∧
    (Config.admitted { maxBufLen := some 2 } = true ∧ 2 < [0xEA#8, 0xEA#8, 0xEA#8].length) ∧
    (asking { maxBufLen := some 2 } (.decodeHeader [0xEA, 0xEA, 0xEA])).takes
      ⟨{ maxBufLen := some 2 }, .decodeHeader [0xEA, 0xEA, 0xEA]⟩ [] :=
  ⟨asking_takes _ _, ⟨rfl, by decide⟩, ⟨rfl, by decide⟩, asking_takes _ _⟩

/-- R311: a step of a plain `disassemble` that raises clears `TR.present`; one that emits leaves it. -/
theorem test_raise_clears_tune_record :
    stepsTo { walking [0x4C, 0x00] 0 2 with tr := { TuneRegs.reset with present := true, codeSize := some 2 } }
      (fun t => t.tr == { TuneRegs.reset with codeSize := some 2 } && t.tuneRecord == none) = true ∧
    stepsTo { walking [0xEA, 0xEA] 0 2 with tr := { TuneRegs.reset with present := true } }
      (fun t => t.tr.present) = true := by decide

/-- The three kinds of step; the last one also where it raises. -/
theorem witness_GroupsNotWrittenKeep :
    stepsTo (asking {} (.decodeHeader v31)) (fun _ => true) = true ∧
    stepsTo (asking {} (.disassemble [0xEA] 0 none none)) (fun _ => true) = true ∧
    (walking [0xEA] 0 1).job = .disassemble ∧ stepsTo (walking [0xEA] 0 1) (fun t => t.st == .ok) = true ∧
    stepsTo (walking [0x4C] 0 1) (fun t => t.phase == .idle && t.st != .ok) = true :=
  ⟨by decide, by decide, rfl, by decide, by decide⟩

theorem witness_BusyBlockTakesNoCommand :
    stepsTo (walking [0xEA] 0 1) (fun _ => true) = true ∧
    stepsTo { State.reset with hdr := some v31Header, job := .analyzeDue } (fun _ => true) = true := by decide

/-- Each clause at the end of a two-byte buffer, and one byte past it. -/
theorem witness_CursorReadsInBounds :
    0 + 2 ≤ [0x00#8, 0x80#8].length ∧ 1 + 1 ≤ [0x00#8, 0x80#8].length ∧ [0x00#8, 0x80#8].length < 1 + 2 ∧
    [0x00#8, 0x80#8].length < 2 + 1 := by decide

theorem witness_CursorTextTrimsTrailingNulls :
    0 + 4 ≤ [0x00#8, 0x41#8, 0x00#8, 0x00#8].length ∧ [0x00#8, 0x41#8, 0x00#8, 0x00#8].length < 1 + 4 := by decide

/-- A skip at the end of the buffer, by one byte and by none. -/
theorem witness_CursorOutOfBounds :
    (cursorAt 8).buf.size < (cursorAt 8).pos + (CursorOp.skip 1).size ∧
    (cursorAt 8).pos + (CursorOp.skip 0).size ≤ (cursorAt 8).buf.size := by decide

/-- A walk whose registers hold no value. -/
theorem witness_ResetValues :
    let s : State := { State.reset with phase := .disRun }
    s.host.reset = false ∧ s.phase = .disRun ∧ (s.dis.off = none ∨ s.dis.high = none) := ⟨rfl, rfl, .inl rfl⟩

theorem witness_ResetEventClearsRegisters :
    ({ walking [0xA9, 0x42] 0 2 with host := { requests := [], reset := true } } : State).host.reset = true := rfl

theorem witness_IdleBlockWaits :
    State.reset.host.reset = false ∧ State.reset.phase = .idle ∧ State.reset.job = .noCommand ∧
    State.reset.host.requests = [] := ⟨rfl, rfl, rfl, rfl⟩

/-- A running walk that meets the invariant. -/
theorem walking_inv {code : List Byte} {off high : Nat} (h : off < high) (hc : high ≤ code.length) :
    (walking code off high).Inv where
  bufWf := rfl
  codeWf := Memory.wf_ofBytes code
  curBound := fun _ h => nomatch h
  hdrWf := fun _ h => nomatch h
  irWf := fun _ h => nomatch h
  outWf := fun _ h => nomatch h
  trWf := .inl rfl
  running := fun _ => ⟨.inl rfl, off, off, high, 0x8000#16, rfl, rfl, rfl, rfl, Nat.le_refl off, h,
    (Memory.size_ofBytes code).symm ▸ hc, rfl, rfl⟩
  waiting := fun h => nomatch h
  due := fun h => nomatch h
  analyzing := fun h => by rcases h with h | h <;> cases h

theorem witness_InvariantKeptByStep :
    (walking [0xA9, 0x42] 0 2).Inv ∧ stepsTo (walking [0xA9, 0x42] 0 2) (fun _ => true) = true :=
  ⟨walking_inv (by decide) (by decide), by decide⟩

/-- A running walk; and an idle block that asks for what the spec does not admit, whose step is refused. -/
theorem witness_InvariantStepsDoNotStop :
    (walking [0xA9, 0x42] 0 2).Inv ∧
    refuses (asking { brkLen := 2 } (.disassemble [] 0 none none)) (.brkLength 2) = true :=
  ⟨walking_inv (by decide) (by decide), by decide⟩

end Sys2Proof.Tests
end

section
/-! The requests the spec does not admit (R286, U2, U16, U17), and the step that refuses them. -/

namespace Sys2Proof.Machine

/-! ## Which configurations and lengths are refused -/

theorem cfgRefusal_emitPartial {cfg : Config} (h : cfg.truncPolicy = .emitPartial) :
    cfgRefusal cfg = some .emitPartial := by
  simp [cfgRefusal, h]

theorem cfgRefusal_brkLength {cfg : Config} (hp : cfg.truncPolicy = .raise) (hb : cfg.brkLen ≠ 1) :
    cfgRefusal cfg = some (.brkLength cfg.brkLen) := by
  simp [cfgRefusal, hp, hb]

theorem cfgRefusal_eq_none {cfg : Config} : cfgRefusal cfg = none ↔ cfg.admitted = true := by
  by_cases hp : cfg.truncPolicy = .raise <;> by_cases hb : cfg.brkLen = 1 <;>
    simp [cfgRefusal, Config.admitted, hp, hb]

theorem lengthRefusal_eq_some {cfg : Config} {len : Nat} {why : Refusal} :
    lengthRefusal cfg len = some why ↔ ∃ max, cfg.maxBufLen = some max ∧ max < len ∧ why = .bufferTooLong len max := by
  cases hm : cfg.maxBufLen with
  | none => simp [lengthRefusal, hm]
  | some max => simp [lengthRefusal, hm, eq_comm]

/-! ## Which requests are refused -/

/-- Why a request is refused, if it is: `decode_header` reads the length bound only, the two commands that decode read
the whole configuration first (log entries 11, 12). -/
def Request.refusal (r : Request) : Option Refusal :=
  match r.cmd with
  | .decodeHeader b => lengthRefusal r.cfg b.length
  | .disassemble code _ _ _ => (cfgRefusal r.cfg).or (lengthRefusal r.cfg code.length)
  | .analyze file _ => (cfgRefusal r.cfg).or (lengthRefusal r.cfg file.length)

/-- `Request.refusal` is what `issue` answers by: nothing else of the state or of the command decides a refusal. -/
theorem issue_eq_refused_iff {r : Request} {s : State} {why : Refusal} :
    issue r s = .refused why ↔ r.refusal = some why := by
  obtain ⟨cfg, cmd⟩ := r
  cases cmd with
  | decodeHeader b => cases h : lengthRefusal cfg b.length <;> simp [issue, Request.refusal, h]
  | disassemble code base low high =>
    cases h : (cfgRefusal cfg).or (lengthRefusal cfg code.length) <;> simp only [issue, Request.refusal, h] <;> simp
  | analyze file name =>
    cases h : (cfgRefusal cfg).or (lengthRefusal cfg file.length) <;> simp only [issue, Request.refusal, h] <;> simp

/-- The step of a block that takes a command is the issue of that command (R33, R336). -/
theorem step_of_takes {s : State} {r : Request} {rs : List Request} (h : s.takes r rs) :
    step s = issue r { s with host := { s.host with requests := rs } } := by
  obtain ⟨hreset, hphase, hjob, hreq⟩ := h
  simp [step, idleStep, hreset, hphase, hjob, hreq]

theorem step_refused_of_takes {s : State} {r : Request} {rs : List Request} {why : Refusal} (h : s.takes r rs)
    (hr : r.refusal = some why) : step s = .refused why :=
  (step_of_takes h).trans (issue_eq_refused_iff.mpr hr)

/-- The two commands that decode share one refusal (log entry 11). -/
theorem refusal_of_decoding {cfg : Config} {cmd : Command} {bytes : List Byte} {base : Word} {low high : Option Nat}
    {name : String} (hcmd : cmd = .disassemble bytes base low high ∨ cmd = .analyze bytes name) :
    Request.refusal ⟨cfg, cmd⟩ = (cfgRefusal cfg).or (lengthRefusal cfg bytes.length) := by
  rcases hcmd with rfl | rfl <;> rfl

/-- Settles O46: each configuration has its own refusal, and the step of a block that takes the command answers it. -/
theorem inadmissibleRequestsRefused : Obligations.InadmissibleRequestsRefused := by
  intro s cfg rs bytes base low high name max
  have tooLong (hm : cfg.maxBufLen = some max) (hlt : max < bytes.length) :
      lengthRefusal cfg bytes.length = some (.bufferTooLong bytes.length max) :=
    lengthRefusal_eq_some.mpr ⟨max, hm, hlt, rfl⟩
  constructor
  · intro cmd hcmd htakes
    have href := refusal_of_decoding (cfg := cfg) hcmd
    refine ⟨fun hp => ?_, fun hp hb => ?_, fun ha hm hlt => ?_⟩ <;> apply step_refused_of_takes htakes
    · rw [href, cfgRefusal_emitPartial hp, Option.some_or]
    · rw [href, cfgRefusal_brkLength hp hb, Option.some_or]
    · rw [href, cfgRefusal_eq_none.mpr ha, Option.none_or, tooLong hm hlt]
  · intro htakes hm hlt
    exact step_refused_of_takes htakes (tooLong hm hlt)

end Sys2Proof.Machine
end

section
/-! The decoder answers only well-formed instructions (R171, R172, R181). -/

namespace Sys2Proof

/-- The cell of the opcode map that `instrOf` reads for a byte (R106). -/
def opcodeCell (b : Byte) : Cell := (opcodeMap.getD (b.toNat / 16) []).getD (b.toNat % 16) .no

/-- The cell holds no documented instruction (the `·` of R106). -/
def Cell.isNo : Cell → Bool
  | .no => true
  | .f1 _ | .f2 _ | .f3 _ => false

/-- The instruction of the cell, if it has one, is well formed with every operand. -/
def Cell.wf : Cell → Prop
  | .no => True
  | .f1 i => i.wf = true
  | .f2 mk => ∀ v, (mk v).wf = true
  | .f3 mk => ∀ w, (mk w).wf = true

/-- The map is empty at the undocumented bytes of R108 and nowhere else. -/
theorem opcodeCell_isNo (b : Byte) : (opcodeCell b).isNo = undocumented.contains b.toNat := by
  revert b
  decide

theorem opcodeMap_wf : ∀ row ∈ opcodeMap, ∀ c ∈ row, c.wf := by
  simp [opcodeMap, opcodeRow0, opcodeRow1, opcodeRow2, opcodeRow3, opcodeRow4, opcodeRow5, opcodeRow6, opcodeRow7,
    opcodeRow8, opcodeRow9, opcodeRowA, opcodeRowB, opcodeRowC, opcodeRowD, opcodeRowE, opcodeRowF, Cell.wf, Instr.wf]

/-- What holds of a list's elements and of the default holds of an indexed read. -/
theorem forall_getD {α : Type} {P : α → Prop} {l : List α} {d : α} (hl : ∀ a ∈ l, P a) (hd : P d) (n : Nat) :
    P (l.getD n d) := by
  rw [List.getD_eq_getElem?_getD]
  cases h : l[n]? with
  | none => exact hd
  | some a => exact hl a (List.mem_of_getElem? h)

theorem opcodeCell_wf (b : Byte) : (opcodeCell b).wf :=
  forall_getD (forall_getD (P := fun row => ∀ c ∈ row, Cell.wf c) opcodeMap_wf (by simp) _)
    (show Cell.wf .no from trivial) _

theorem instrOf_wf (b b1 b2 : Byte) : (instrOf b b1 b2).wf = true := by
  have hno := opcodeCell_isNo b
  have hwf := opcodeCell_wf b
  unfold opcodeCell at hno hwf
  unfold instrOf
  split <;> rename_i hc <;> rw [hc] at hno hwf
  · exact hno.symm
  · exact hwf
  · exact hwf b1
  · exact hwf (wordLE b1 b2)

/-- Whatever the bytes, a decoded instruction is well formed. -/
theorem wf_of_decode {bs rest : List Byte} {i : Instr} (h : decode bs = .ok i rest) : i.wf = true := by
  cases bs with
  | nil => cases h
  | cons b bs =>
    simp only [decode] at h
    split at h
    · cases h
    · injection h with hi
      exact hi ▸ instrOf_wf b _ _

end Sys2Proof
end

section
/-! What one step of a running walk can answer, said once (R273, R274, R277), and what follows of it: the base is for
reporting only, and the walk reads and writes only its own register groups. -/

namespace Sys2Proof.Machine

/-! ## The outcome of a step of the walk -/

theorem encodedLength (i : Instr) : Laws.EncodedLength.Statement i := by
  cases i
  case unknown b => exact Laws.EncodedLength.unknown b
  all_goals
    refine Laws.EncodedLength.of_row _ _ rfl rfl ?_
    simp only [encode, Instr.opcode, Instr.operand, Instr.parts, Operand.bytes, List.length_cons, List.length_nil]
    decide

/-- The record that the meaning of an instruction emits at `off` (R274). -/
def emittedRecord (i : Instr) (off : Nat) : Record :=
  { mn := (rom i.opcode).mn, mode := (rom i.opcode).mode, len := (rom i.opcode).len
    operand := i.operand, offset := off, opcode := i.opcode }

theorem emittedRecord_wf {i : Instr} (hw : i.wf = true) (off : Nat) : (emittedRecord i off).wf := by
  obtain ⟨hlen, hmode⟩ := encodedLength i hw
  exact ⟨rfl, hlen.symm.trans hmode, hlen⟩

/-- What the meaning of a decoded instruction does where a step exists (R274, R277). -/
theorem exec_cases {i : Instr} (hw : i.wf = true) {s : State} {off high : Nat} (hr : s.runningAt off high) :
    (off + (emittedRecord i off).len ≤ high ∧ exec i s = .next (s.commit (emittedRecord i off))) ∨
    (high < off + (rom i.opcode).len ∧
      exec i s = .next (s.raiseTruncated off i.opcode (rom i.opcode).len (high - off))) := by
  rw [exec_eq_instrStep i hw s]
  rcases Nat.lt_or_ge high (off + (rom i.opcode).len) with hlt | hge
  · exact .inr ⟨hlt, instrStep_truncated hr _ _ _ _ hlt⟩
  · exact .inl ⟨hge, instrStep_fits hr _ _ _ _ hge⟩

/-- A register that is `none` is not read as zero (R45). -/
theorem runStep_absentRegister {s : State} (h : s.dis.off = none ∨ s.dis.high = none) :
    runStep s = .fault .absentRegister := by
  unfold runStep
  rcases h with h | h <;> rw [h]
  cases s.dis.off <;> rfl

/-- If a step of the walk answers a next state, the walk was at its end and is ended; or it was running at `off` and
emitted a well-formed record that fits the range; or it raised `TruncatedInstruction`. -/
theorem runStep_next {s t : State} (hp : s.phase = .disRun) (h : runStep s = .next t) :
    (∃ off high, s.dis.off = some off ∧ s.dis.high = some high ∧ high ≤ off ∧ t = s.endWalk) ∨
    ∃ off high, s.runningAt off high ∧
      ((∃ r : Record, r.wf ∧ r.offset = off ∧ off + r.len ≤ high ∧ t = (s.commit r).finishIfDone) ∨
       (∃ b len, high < off + len ∧ t = s.raiseTruncated off b len (high - off))) := by
  by_cases habs : s.dis.off = none ∨ s.dis.high = none
  · rw [runStep_absentRegister habs] at h
    cases h
  simp only [not_or, Option.ne_none_iff_exists'] at habs
  obtain ⟨⟨off, ho⟩, ⟨high, hh⟩⟩ := habs
  obtain ⟨hle, hrun⟩ | ⟨hlt, hrun⟩ := runStep_cases ho hh
  · rw [hrun] at h
    exact .inl ⟨off, high, ho, hh, hle, by simpa using h.symm⟩
  have hat : s.runningAt off high := ⟨hp, ho, hh, hlt⟩
  refine .inr ⟨off, high, hat, ?_⟩
  obtain ⟨i, rest, hd, hrun⟩ | ⟨b, len, avail, -, hrun⟩ | ⟨-, hrun⟩ := hrun <;> rw [hrun] at h
  · obtain ⟨u, hu, rfl⟩ := mapNext_eq_next.mp h
    have hw := wf_of_decode hd
    obtain ⟨hfit, hx⟩ | ⟨hover, hx⟩ := exec_cases hw hat <;> rw [hx] at hu <;> cases hu
    · exact .inl ⟨_, emittedRecord_wf hw off, rfl, hfit, rfl⟩
    · exact .inr ⟨_, _, hover, State.finishIfDone_of_idle _ rfl⟩
  · unfold shortFetch at h
    split at h <;> cases h
    exact .inr ⟨_, _, ‹_›, rfl⟩
  · cases h

/-- Without a reset, a step of a running walk is the walk's step (R346). -/
theorem step_of_disRun {s : State} (hreset : s.host.reset = false) (hphase : s.phase = .disRun) :
    step s = runStep s := by
  simp [step, hreset, hphase]

/-! ## The base (R30, R282) -/

/-- The state with another base in `DIS`. -/
def State.withBase (base : Option Word) (s : State) : State := { s with dis := { s.dis with base } }

section

variable (base : Option Word) (s : State)

@[simp] theorem State.withBase_off : (s.withBase base).dis.off = s.dis.off := rfl
@[simp] theorem State.withBase_high : (s.withBase base).dis.high = s.dis.high := rfl
@[simp] theorem State.withBase_input : (s.withBase base).input = s.input := rfl

theorem finishIfDone_withBase : (s.withBase base).finishIfDone = s.finishIfDone.withBase base := by
  obtain ⟨off, high, hp, ho, hh, hle, h⟩ | ⟨hno, h⟩ := s.finishIfDone_cases <;> rw [h]
  · exact State.finishIfDone_of_le _ hp ho hh hle
  · obtain ⟨off, high, hp, ho, hh, hle, -⟩ | ⟨-, h⟩ := (s.withBase base).finishIfDone_cases
    · exact absurd (hno off high hp ho hh) (by omega)
    · exact h

theorem instrStep_withBase (opc : Byte) (mn : Mnemonic) (mode : Mode) (len : Nat) (operand : Operand) :
    instrStep opc mn mode len operand (s.withBase base) =
      mapNext (State.withBase base) (instrStep opc mn mode len operand s) := by
  unfold instrStep State.withBase
  dsimp only
  split
  · split
    · rfl
    · split <;> rfl
  · rfl

theorem exec_withBase {i : Instr} (hw : i.wf = true) :
    exec i (s.withBase base) = mapNext (State.withBase base) (exec i s) := by
  rw [exec_eq_instrStep i hw, exec_eq_instrStep i hw, instrStep_withBase]

theorem shortFetch_withBase (b : Byte) (len off high : Nat) :
    shortFetch b len off high (s.withBase base) = mapNext (State.withBase base) (shortFetch b len off high s) := by
  unfold shortFetch
  split <;> rfl

theorem mapNext_finishIfDone_withBase (o : Out) :
    mapNext State.finishIfDone (mapNext (State.withBase base) o) =
      mapNext (State.withBase base) (mapNext State.finishIfDone o) := by
  cases o with
  | next t => exact congrArg Host.Outcome.next (finishIfDone_withBase base t)
  | fault r => rfl
  | refused r => rfl

theorem runStep_withBase : runStep (s.withBase base) = mapNext (State.withBase base) (runStep s) := by
  by_cases habs : s.dis.off = none ∨ s.dis.high = none
  · rw [runStep_absentRegister habs, runStep_absentRegister (s := s.withBase base) habs]
    rfl
  simp only [not_or, Option.ne_none_iff_exists'] at habs
  obtain ⟨⟨off, ho⟩, ⟨high, hh⟩⟩ := habs
  simp only [runStep, State.withBase_off, State.withBase_high, State.withBase_input, ho, hh]
  split
  · rfl
  · cases hd : decode (fetchWindow s.input.code off high) with
    | ok i rest =>
      dsimp only
      rw [exec_withBase base s (wf_of_decode hd), mapNext_finishIfDone_withBase]
    | reject e =>
      cases e with
      | noBytes => rfl
      | truncated b len avail => exact shortFetch_withBase base s b len off high

end

/-- Settles O27: every part of the walk's step commutes with a change of the base. -/
theorem baseDoesNotMatter : Obligations.BaseDoesNotMatter := by
  intro s base hreset hphase
  calc step (s.withBase base)
    _ = runStep (s.withBase base) := step_of_disRun hreset hphase
    _ = mapNext (State.withBase base) (runStep s) := runStep_withBase base s
    _ = mapNext (State.withBase base) (step s) := by rw [step_of_disRun hreset hphase]

end Sys2Proof.Machine
end

section
/-! The steps that take a command (R33, R270, R290): what an admitted request steps to, and which register groups a step
leaves (R40). -/

namespace Sys2Proof.Machine

/-! ## Admitted requests -/

theorem lengthRefusal_eq_none {cfg : Config} {len : Nat} (h : ∀ max, cfg.maxBufLen = some max → len ≤ max) :
    lengthRefusal cfg len = none := by
  rw [Option.eq_none_iff_forall_ne_some]
  intro why hwhy
  obtain ⟨max, hmax, hlt, -⟩ := lengthRefusal_eq_some.mp hwhy
  exact absurd (h max hmax) (by omega)

theorem decodingRefusal_eq_none {cfg : Config} {len : Nat} (h : cfg.accepts len) :
    (cfgRefusal cfg).or (lengthRefusal cfg len) = none := by
  rw [cfgRefusal_eq_none.mpr h.1, lengthRefusal_eq_none h.2, Option.none_or]

/-- The state in which a taken command runs: the request is out of the host's queue, its configuration is in force and the
stream is empty. -/
def State.taking (s : State) (cfg : Config) (rs : List Request) : State :=
  ({ s with host := { s.host with requests := rs } } : State).accept cfg

section

variable {s t : State} {cfg : Config} {rs : List Request}

theorem step_disassemble {code : List Byte} {base : Word} {low high : Option Nat}
    (h : s.takes ⟨cfg, .disassemble code base low high⟩ rs) (ha : cfg.accepts code.length) :
    step s = .next (disassemble code base low high (s.taking cfg rs)) := by
  rw [step_of_takes h]
  simp only [issue, decodingRefusal_eq_none ha]
  rfl

theorem step_analyze {file : List Byte} {name : String} (h : s.takes ⟨cfg, .analyze file name⟩ rs)
    (ha : cfg.accepts file.length) : step s = .next (analyze cfg file name (s.taking cfg rs)) := by
  rw [step_of_takes h]
  simp only [issue, decodingRefusal_eq_none ha]
  rfl

/-- If the block takes a command and answers a next state, the command ran. -/
theorem step_next_of_takes {r : Request} (h : s.takes r rs) (ht : step s = .next t) :
    (∃ b, r.cmd = .decodeHeader b ∧ t = decodeHeader r.cfg b (s.taking r.cfg rs)) ∨
    (∃ code base low high, r.cmd = .disassemble code base low high ∧
      t = disassemble code base low high (s.taking r.cfg rs)) ∨
    (∃ file name, r.cmd = .analyze file name ∧ t = analyze r.cfg file name (s.taking r.cfg rs)) := by
  rw [step_of_takes h] at ht
  obtain ⟨why, hi⟩ | ⟨b, hc, hi⟩ | ⟨code, base, low, high, hc, hi⟩ | ⟨file, name, hc, hi⟩ :=
      issue_cases r { s with host := { s.host with requests := rs } } <;> rw [hi] at ht <;> cases ht
  · exact .inl ⟨b, hc, rfl⟩
  · exact .inr (.inl ⟨code, base, low, high, hc, rfl⟩)
  · exact .inr (.inr ⟨file, name, hc, rfl⟩)

end

/-! ## The header stage -/

/-- The header stage raises and leaves `H` absent, or answers the record of the bytes and `ST = OK` (R140, R160, R162). -/
theorem headerStage_outcomes (cfg : Config) (b : List Byte) (s : State) :
    (b.length < hdrLen ∧
      headerStage cfg b s = .error (({ s with hdr := none }).raise (.truncatedInput b.length))) ∨
    (hdrLen ≤ b.length ∧ cfg.strictMagic = true ∧ b.take 5 ≠ cfg.magic.toList ∧
      headerStage cfg b s =
        .error (({ s with
          input := { s.input with buf := Memory.ofBytes b }, cur := some hdrLen, hdr := none }).raise
            (.invalidMagic (b.take 5)))) ∨
    (hdrLen ≤ b.length ∧ (cfg.strictMagic = false ∨ b.take 5 = cfg.magic.toList) ∧
      headerStage cfg b s =
        .ok { s with
          input := { s.input with buf := Memory.ofBytes b }, cur := some hdrLen, hdr := some (headerAt cfg b)
          st := .ok }) := by
  obtain ⟨hl, h⟩ | ⟨hl, e, c, hd, -⟩ | ⟨hl, hd, c, hf, hs, hv, h⟩ | ⟨hl, hd, c, hf, hv, h⟩ := headerStage_cases cfg b s
  · exact .inl ⟨hl, h⟩
  · rw [decodeFields_ok cfg b hl] at hd
    cases hd
  · rw [decodeFields_ok cfg b hl] at hf
    cases hf
    exact .inr (.inl ⟨hl, hs, by simpa [headerAt, magicValid] using hv, h⟩)
  · rw [decodeFields_ok cfg b hl] at hf
    cases hf
    exact .inr (.inr ⟨hl, by simpa [headerAt, magicValid] using hv, h⟩)

/-- On at least 128 bytes with an admitted magic the header stage answers the record. -/
theorem headerStage_ok {cfg : Config} {b : List Byte} (hl : hdrLen ≤ b.length)
    (hm : cfg.strictMagic = false ∨ b.take 5 = cfg.magic.toList) (s : State) :
    headerStage cfg b s =
      .ok { s with
        input := { s.input with buf := Memory.ofBytes b }, cur := some hdrLen, hdr := some (headerAt cfg b)
        st := .ok } := by
  obtain ⟨hl', -⟩ | ⟨-, hs, hb, -⟩ | ⟨-, -, h⟩ := headerStage_outcomes cfg b s
  · omega
  · rcases hm with hm | hm
    · simp [hm] at hs
    · exact absurd hm hb
  · exact h

/-! ## The obligations on commands -/

/-- Settles O32: the range is inside the buffer and not empty, so the walk starts. -/
theorem disassembleAcceptedStarts : Obligations.DisassembleAcceptedStarts := by
  intro s cfg code base low high rs htakes ha hhi hlt
  rw [step_disassemble htakes ha, disassemble]
  dsimp only
  rw [if_neg (Nat.not_lt.mpr hhi), State.startWalk_of_lt _ _ _ hlt]
  exact ⟨_, rfl, ⟨rfl, rfl, rfl, hlt⟩, rfl, rfl, rfl, rfl, rfl, rfl, rfl, rfl, rfl, rfl, rfl⟩

/-- Settles O43: the header stage answers the record, and the deferred branch of `analyze` ends the command. -/
theorem analyzeDeferredKeepsBytes : Obligations.AnalyzeDeferredKeepsBytes := by
  intro s cfg file name rs htakes ha hl hm hdefer
  obtain ⟨-, hphase, hjob, -⟩ := id htakes
  rw [step_analyze htakes ha, analyze, headerStage_ok hl hm]
  simp only [hdefer, if_true]
  exact ⟨_, _, rfl, rfl, rfl, congrArg some hdefer, if_pos hdefer, rfl, hphase, hjob, rfl, rfl, rfl⟩

/-- `decode_header` writes neither `DIS`, `IR`, `TR` nor the host's queue, and leaves an idle block idle (R40). -/
theorem decodeHeader_keeps (cfg : Config) (b : List Byte) {s : State} (hp : s.phase = .idle) :
    (decodeHeader cfg b s).dis = s.dis ∧ (decodeHeader cfg b s).ir = s.ir ∧ (decodeHeader cfg b s).tr = s.tr ∧
    (decodeHeader cfg b s).phase = .idle ∧ (decodeHeader cfg b s).host = s.host := by
  obtain ⟨-, h⟩ | ⟨-, -, -, h⟩ | ⟨-, -, h⟩ := headerStage_outcomes cfg b s <;> simp [decodeHeader, h, hp]

theorem startWalk_keeps (s : State) (base : Word) (low high : Nat) (job : Job) :
    (s.startWalk base low high job).cur = s.cur ∧ (s.startWalk base low high job).hdr = s.hdr ∧
    (s.startWalk base low high job).host = s.host := by
  simp [State.startWalk]

/-- An accepted walk of `disassemble` does not write `TR`, nor does it at the end of an empty range (R40). -/
theorem startWalk_disassemble_tr (s : State) (base : Word) (low high : Nat) :
    (s.startWalk base low high .disassemble).tr = s.tr := by
  obtain ⟨-, h⟩ | ⟨-, h⟩ := startWalk_cases s base low high .disassemble <;> rw [h]
  simp

/-- The acceptance of `disassemble` writes neither `CUR`, `H`, `TR` nor the host's queue (R40). -/
theorem disassemble_keeps (code : List Byte) (base : Word) (low high : Option Nat) (s : State) :
    (disassemble code base low high s).cur = s.cur ∧ (disassemble code base low high s).hdr = s.hdr ∧
    (disassemble code base low high s).tr = s.tr ∧ (disassemble code base low high s).host = s.host := by
  unfold disassemble
  dsimp only
  split
  · exact ⟨rfl, rfl, rfl, rfl⟩
  · obtain ⟨hcur, hhdr, hhost⟩ := startWalk_keeps
      { s with input := { s.input with code := Memory.ofBytes code } } base (low.getD 0) (high.getD code.length)
      .disassemble
    exact ⟨hcur, hhdr, startWalk_disassemble_tr _ _ _ _, hhost⟩

/-- The step of a walk writes neither `CUR`, `H` nor the host's queue (R40). -/
theorem runStep_keeps {s t : State} (hp : s.phase = .disRun) (h : runStep s = .next t) :
    t.cur = s.cur ∧ t.hdr = s.hdr ∧ t.host = s.host := by
  obtain ⟨-, -, -, -, -, rfl⟩ | ⟨off, high, -, ⟨r, -, -, -, rfl⟩ | ⟨b, len, -, rfl⟩⟩ := runStep_next hp h <;> simp

/-- The step of a `disassemble` walk leaves `TR` unless it raises, which clears `TR.present` (R40, R311). -/
theorem runStep_disassemble_tr {s t : State} (hp : s.phase = .disRun) (hj : s.job = .disassemble)
    (h : runStep s = .next t) :
    ((t.phase = .disRun ∨ t.st = .ok) ∧ t.tr = s.tr) ∨
    (t.phase = .idle ∧ t.st ≠ .ok ∧ t.tr = { s.tr with present := false }) := by
  obtain ⟨-, -, -, -, -, rfl⟩ | ⟨off, high, -, ⟨r, -, -, -, rfl⟩ | ⟨b, len, -, rfl⟩⟩ := runStep_next hp h
  · exact .inl ⟨.inr rfl, by simp [hj]⟩
  · left
    obtain ⟨-, -, -, -, -, -, hend⟩ | ⟨-, hend⟩ := (s.commit r).finishIfDone_cases <;> rw [hend]
    · exact ⟨.inr rfl, by simp [hj]⟩
    · exact ⟨.inl hp, rfl⟩
  · exact .inr ⟨rfl, by simp, rfl⟩

/-- Settles O47, one lemma per command: what its step does not write. -/
theorem groupsNotWrittenKeep : Obligations.GroupsNotWrittenKeep := by
  refine ⟨fun s t cfg b rs htakes ht => ?_, fun s t cfg code base low high rs htakes ht => ?_,
    fun s t hreset hp hj ht => ?_⟩
  · obtain ⟨b, hc, rfl⟩ | ⟨_, _, _, _, hc, -⟩ | ⟨_, _, hc, -⟩ := step_next_of_takes htakes ht <;> cases hc
    obtain ⟨-, hp, -⟩ := htakes
    obtain ⟨hdis, hir, htr, hphase, hhost⟩ := decodeHeader_keeps cfg b (s := s.taking cfg rs) hp
    exact ⟨hdis, hir, htr, hphase.trans hp.symm, congrArg HostPort.requests hhost⟩
  · obtain ⟨_, hc, -⟩ | ⟨_, _, _, _, hc, rfl⟩ | ⟨_, _, hc, -⟩ := step_next_of_takes htakes ht <;> cases hc
    obtain ⟨hcur, hhdr, htr, hhost⟩ := disassemble_keeps code base low high (s.taking cfg rs)
    exact ⟨hcur, hhdr, htr, congrArg HostPort.requests hhost⟩
  · rw [step_of_disRun hreset hp] at ht
    obtain ⟨hcur, hhdr, -⟩ := runStep_keeps hp ht
    refine ⟨hcur, hhdr, ?_⟩
    obtain ⟨hok, htr⟩ | ⟨hidle, hst, htr⟩ := runStep_disassemble_tr hp hj ht
    · exact ⟨fun _ => htr, fun ⟨hidle, hst⟩ => by simp [hidle, hst] at hok⟩
    · exact ⟨fun hok => by simp [hidle, hst] at hok, fun _ => htr⟩

/-- The due stage of `analyze` starts a walk of the code buffer at the header's load address (R290). -/
theorem acceptStage_next {s t : State} (h : acceptStage s = .next t) :
    ∃ hd, s.hdr = some hd ∧ t = s.startWalk hd.loadAddr 0 s.input.code.size .analyze := by
  unfold acceptStage at h
  split at h
  next hd hh => exact ⟨hd, hh, by simpa using h.symm⟩
  next => cases h

/-- Settles O48: a reset, a step of the walk and the due stage of `analyze` all leave the host's queue. -/
theorem busyBlockTakesNoCommand : Obligations.BusyBlockTakesNoCommand := by
  intro s t hbusy ht
  obtain ⟨-, hs⟩ | ⟨-, hp, hs⟩ | ⟨-, hp, hs⟩ := step_cases s <;> rw [hs] at ht
  · cases ht
    rfl
  · obtain ⟨-, -, hhost⟩ := runStep_keeps hp ht
    exact congrArg HostPort.requests hhost
  · have hdue : s.job = .analyzeDue := hbusy.resolve_left (by simp [hp])
    obtain ⟨-, hi⟩ | ⟨hno, -⟩ | ⟨hno, -⟩ := idleStep_cases s
    · obtain ⟨hd, -, rfl⟩ := acceptStage_next (hi ▸ ht)
      obtain ⟨-, -, hhost⟩ := startWalk_keeps s hd.loadAddr 0 s.input.code.size .analyze
      exact congrArg HostPort.requests hhost
    · exact absurd hdue hno
    · exact absurd hdue hno

/-! ## Reset values and reporting -/

/-- Settles O54: the values are those of `State.reset`, and the walk's step reads both registers before anything else. -/
theorem resetValues : Obligations.ResetValues := by
  refine ⟨by decide, fun s hreset hphase habs => ?_⟩
  rw [step_of_disRun hreset hphase, runStep_absentRegister habs]

/-- Settles O57: no sum is reduced before its 16-bit view is taken. -/
theorem reportedAddressUnreduced : Obligations.ReportedAddressUnreduced := by
  intro base offset
  refine ⟨rfl, ?_, ?_⟩
  · simp [addr16, reportedAddr]
  · exact decide_eq_true_iff

end Sys2Proof.Machine
end

section
/-! The invariant `State.Inv`. Its clauses about data hold whatever phase the block is in; they are kept one operation at a
time, and the phase decides which of the other clauses are due. -/

namespace Sys2Proof.Machine

/-! ## Header records and tune records the block makes are well formed -/

theorem trimNulls_getLast?_ne (bs : List Byte) : (trimNulls bs).getLast? ≠ some 0#8 := by
  rw [trimNulls, List.getLast?_reverse]
  intro h
  have hnot := List.head?_dropWhile_not (· == 0#8) bs.reverse
  simp [h] at hnot

theorem length_trimNulls_le (bs : List Byte) : (trimNulls bs).length ≤ bs.length := by
  have := (List.dropWhile_suffix (· == 0#8) (l := bs.reverse)).length_le
  simpa [trimNulls] using this

theorem textWf_trimNulls {bs : List Byte} (h : bs.length ≤ 32) : textWf (trimNulls bs) :=
  ⟨(length_trimNulls_le bs).trans h, trimNulls_getLast?_ne bs⟩

/-- The record read from at least 128 bytes has the widths and derived fields of R24, R25, R155, R156. -/
theorem headerAt_wf (cfg : Config) {b : List Byte} (h : hdrLen ≤ b.length) : (headerAt cfg b).wf := by
  have hl : 128 ≤ b.length := h
  have raw (p n : Nat) : ((b.drop p).take n).length ≤ n := List.length_take_le _ _
  refine ⟨?_, textWf_trimNulls (raw 14 32), textWf_trimNulls (raw 46 32), textWf_trimNulls (raw 78 32), ?_, rfl, rfl⟩
  · simp [headerAt]; omega
  · simp [headerAt]; omega

theorem lastCodeAddrOf_eq_none {load : Word} {size : Nat} : lastCodeAddrOf load size = none ↔ size = 0 := by
  simp [lastCodeAddrOf]

/-- The 16-bit space is passed exactly when the last occupied address is beyond it (R293, R294). -/
theorem addrOverflowOf_eq_true {load : Word} {size : Nat} :
    addrOverflowOf load size = true ↔ ∃ a, lastCodeAddrOf load size = some a ∧ 0xFFFF < a := by
  have := load.isLt
  by_cases h : size = 0 <;> simp [addrOverflowOf, lastCodeAddrOf, h] <;> omega

theorem droppedOf_le (cfg : Config) (load : Word) (size : Nat) : droppedOf cfg load size ≤ size := by
  unfold droppedOf
  split <;> omega

/-- The clipping mark says whether a byte was removed (R295). -/
theorem clippedOf_eq_decide (cfg : Config) (load : Word) (size : Nat) :
    clippedOf cfg load size = decide (0 < droppedOf cfg load size) := by
  unfold droppedOf
  cases hc : clippedOf cfg load size with
  | false => simp
  | true =>
    have hlt : clipLimit load < size := by simp_all [clippedOf]
    simp; omega

/-- The fields `analyze` computes are consistent, whether or not the record is complete. -/
theorem tuneFields_wf (cfg : Config) (name : String) (load : Word) (code : List Byte) (present : Bool) :
    TuneRegs.wf { tuneFields cfg name load code with present } := by
  refine .inr ⟨name, code.length, droppedOf cfg load code.length, cfg.deferDisasm, _, rfl, rfl, rfl,
    lastCodeAddrOf_eq_none, ?_, rfl, droppedOf_le _ _ _, ?_, rfl, rfl, ?_⟩
  · simpa [tuneFields] using addrOverflowOf_eq_true
  · exact congrArg some (clippedOf_eq_decide cfg load code.length)
  · cases hd : cfg.deferDisasm <;> simp [tuneFields, hd]

/-- A consistent tune record stays one when it is marked absent. -/
theorem TuneRegs.wf_absent {t : TuneRegs} (h : t.wf) : TuneRegs.wf { t with present := false } := by
  obtain rfl | h := h
  · exact .inl rfl
  · exact .inr h

/-- Computed fields stay consistent however the record is marked. -/
theorem TuneRegs.wf_marked {t : TuneRegs} (h : t.wf) (hc : t.codeSize.isSome = true) (present : Bool) :
    TuneRegs.wf { t with present } := by
  obtain rfl | h := h
  · cases hc
  · exact .inr h

theorem tiles_append {low mid : Nat} {rs : List Record} {r : Record} (h : tiles low rs mid) (hr : r.offset = mid) :
    tiles low (rs ++ [r]) (mid + r.len) := by
  induction rs generalizing low with
  | nil => exact ⟨hr.trans h.symm, congrArg (· + r.len) h⟩
  | cons q qs ih => exact ⟨h.1, ih h.2⟩

/-! ## The clauses about data -/

/-- The clauses of `State.Inv` that do not depend on the phase or the command in progress. -/
structure State.DataInv (s : State) : Prop where
  bufWf    : s.input.buf.wf = true
  codeWf   : s.input.code.wf = true
  curBound : ∀ p, s.cur = some p → p ≤ s.input.buf.size
  hdrWf    : ∀ h, s.hdr = some h → h.wf
  irWf     : ∀ r, s.ir = some r → r.wf
  outWf    : ∀ r, r ∈ s.out → r.wf
  trWf     : s.tr.wf

theorem State.Inv.dataInv {s : State} (h : s.Inv) : s.DataInv := { h with }

/-- An idle block with no command in progress owes only the clauses about data. -/
theorem State.DataInv.inv_of_idle {s : State} (h : s.DataInv) (hp : s.phase = .idle) (hj : s.job = .noCommand) :
    s.Inv :=
  { h with
    running := fun hrun => by simp [hp] at hrun
    waiting := fun _ => .inl hj
    due := fun hdue => by simp [hj] at hdue
    analyzing := fun hdue => by simp [hj] at hdue }

/-- A running walk owes the range clauses, and for `analyze` the computed fields of an absent record. -/
theorem State.DataInv.inv_of_walk {s : State} (h : s.DataInv) (hp : s.phase = .disRun) (hw : s.walkInv)
    (ha : s.job = .analyze → s.tr.present = false ∧ s.tr.codeSize.isSome = true) : s.Inv :=
  have hjob : s.job ≠ .analyzeDue := by
    obtain ⟨hj | hj, -⟩ := hw <;> simp [hj]
  { h with
    running := fun _ => hw
    waiting := fun hidle => by simp [hp] at hidle
    due := fun hdue => absurd hdue hjob
    analyzing := fun hj => ha (hj.resolve_left hjob) }

/-- The end of a walk keeps them: for `analyze` the record that becomes present has its fields. -/
theorem State.DataInv.endWalk_inv {s : State} (h : s.DataInv)
    (ha : s.job = .analyze → s.tr.codeSize.isSome = true) : s.endWalk.Inv := by
  have htr : s.endWalk.tr.wf := by
    by_cases hj : s.job = .analyze
    · exact TuneRegs.wf_marked h.trWf (ha hj) _
    · simpa [(Job.completesTune_eq_false s.job).mpr hj] using h.trWf
  exact State.DataInv.inv_of_idle { h with trWf := htr } rfl rfl

theorem State.DataInv.raise_inv {s : State} (h : s.DataInv) (e : Status) : (s.raise e).Inv :=
  State.DataInv.inv_of_idle { h with } rfl rfl

theorem State.DataInv.raiseTruncated_inv {s : State} (h : s.DataInv) (off : Nat) (b : Byte) (len avail : Nat) :
    (s.raiseTruncated off b len avail).Inv :=
  State.DataInv.inv_of_idle { h with trWf := TuneRegs.wf_absent h.trWf } rfl rfl

theorem State.DataInv.commit {s : State} (h : s.DataInv) {r : Record} (hr : r.wf) : (s.commit r).DataInv :=
  { h with
    irWf := fun q hq => by cases hq; exact hr
    outWf := fun q hq => by
      rcases List.mem_append.mp hq with hq | hq
      · exact h.outWf q hq
      · exact List.mem_singleton.mp hq ▸ hr }

theorem State.DataInv.taking {s : State} (h : s.DataInv) (cfg : Config) (rs : List Request) :
    (s.taking cfg rs).DataInv :=
  { h with outWf := fun _ hr => nomatch hr }

theorem dataInv_reset : State.reset.DataInv where
  bufWf := Memory.wf_reset.1
  codeWf := Memory.wf_reset.2
  curBound := fun _ hp => nomatch hp
  hdrWf := fun _ hh => nomatch hh
  irWf := fun _ hr => nomatch hr
  outWf := fun _ hr => nomatch hr
  trWf := .inl rfl

/-- A reset event keeps the records already emitted, and they stay well formed (R331). -/
theorem State.DataInv.applyReset_inv {s : State} (h : s.DataInv) : s.applyReset.Inv :=
  State.DataInv.inv_of_idle { dataInv_reset with outWf := h.outWf } rfl rfl

/-! ## The walk -/

/-- A walk starts inside its range or ends at once; nothing has been emitted yet. -/
theorem State.DataInv.startWalk_inv {s : State} (h : s.DataInv) (base : Word) {low high : Nat} {job : Job}
    (hjob : job = .disassemble ∨ job = .analyze) (hout : s.out = []) (hhigh : high ≤ s.input.code.size)
    (ha : job = .analyze → s.tr.present = false ∧ s.tr.codeSize.isSome = true) :
    (s.startWalk base low high job).Inv := by
  obtain ⟨hlt, hs⟩ | ⟨hle, hs⟩ := startWalk_cases s base low high job <;> rw [hs]
  · refine State.DataInv.inv_of_walk { h with } rfl ⟨hjob, low, low, high, base, rfl, rfl, rfl, rfl, le_rfl, hlt,
      hhigh, ?_, ?_⟩ ha
    · simp [hout, tiles]
    · simp [hout]
  · exact State.DataInv.endWalk_inv { h with } fun hj => (ha hj).2

/-- An emitted record extends the cover by its own interval, so the walk is inside its range again, or at its end. -/
theorem State.Inv.commit_finishIfDone {s : State} (h : s.Inv) {off high : Nat} (hat : s.runningAt off high)
    {r : Record} (hr : r.wf) (hoff : r.offset = off) : (s.commit r).finishIfDone.Inv := by
  obtain ⟨hp, ho, hh, -⟩ := hat
  have hdata := h.dataInv.commit hr
  have ha (hj : s.job = .analyze) := h.analyzing (.inr hj)
  obtain ⟨-, -, -, -, -, -, hend⟩ | ⟨hrun, hend⟩ := (s.commit r).finishIfDone_cases <;> rw [hend]
  · exact hdata.endWalk_inv fun hj => (ha hj).2
  · obtain ⟨hjob, low, off', high', base, hl, ho', hh', hb, hle, -, hsize, htiles, hcount⟩ := h.running hp
    cases ho.symm.trans ho'
    cases hh.symm.trans hh'
    have hlt : off + r.len < high := hrun _ _ hp (congrArg (fun o => some (o + r.len)) hoff) hh
    refine hdata.inv_of_walk hp ⟨hjob, low, off + r.len, high, base, hl, congrArg (fun o => some (o + r.len)) hoff, hh,
      hb, by omega, hlt, hsize, tiles_append htiles hoff, ?_⟩ ha
    simp [State.commit, State.emit, hcount]

theorem runStep_keeps_inv {s t : State} (h : s.Inv) (hp : s.phase = .disRun) (ht : runStep s = .next t) : t.Inv := by
  obtain ⟨-, -, -, -, -, rfl⟩ | ⟨off, high, hat, ⟨r, hr, hoff, -, rfl⟩ | ⟨b, len, -, rfl⟩⟩ := runStep_next hp ht
  · exact h.dataInv.endWalk_inv fun hj => (h.analyzing (.inr hj)).2
  · exact h.commit_finishIfDone hat hr hoff
  · exact h.dataInv.raiseTruncated_inv off b len _

/-! ## The commands -/

theorem State.DataInv.withoutHeader {s : State} (h : s.DataInv) : State.DataInv { s with hdr := none } :=
  { h with hdrWf := fun _ hh => by cases hh }

/-- A cursor at the end of the header is inside the buffer it is attached to (R22, R164). -/
theorem State.DataInv.attached {s : State} (h : s.DataInv) {b : List Byte} (hl : hdrLen ≤ b.length) :
    State.DataInv { s with input := { s.input with buf := Memory.ofBytes b }, cur := some hdrLen } :=
  { h with
    bufWf := Memory.wf_ofBytes b
    curBound := fun p hp => by
      cases hp
      simpa using hl }

/-- An error of the header stage ends the command with `H` absent. -/
theorem State.DataInv.headerStage_error {s t : State} (h : s.DataInv) {cfg : Config} {b : List Byte}
    (ht : headerStage cfg b s = .error t) : t.Inv := by
  obtain ⟨-, hs⟩ | ⟨hl, -, -, hs⟩ | ⟨-, -, hs⟩ := headerStage_outcomes cfg b s <;> rw [hs] at ht <;> cases ht
  · exact h.withoutHeader.raise_inv _
  · exact (h.attached hl).withoutHeader.raise_inv _

/-- The header stage that ends well has put a well-formed record into `H` and read inside its buffer. -/
theorem State.DataInv.headerStage_ok {s t : State} (h : s.DataInv) {cfg : Config} {b : List Byte}
    (ht : headerStage cfg b s = .ok t) :
    t.DataInv ∧ t.hdr = some (headerAt cfg b) ∧ t.phase = s.phase ∧ t.job = s.job ∧ t.out = s.out := by
  obtain ⟨-, hs⟩ | ⟨-, -, -, hs⟩ | ⟨hl, -, hs⟩ := headerStage_outcomes cfg b s <;> rw [hs] at ht <;> cases ht
  refine ⟨{ h.attached hl with hdrWf := fun hd hh => ?_ }, rfl, rfl, rfl, rfl⟩
  cases hh
  exact headerAt_wf cfg hl

theorem State.DataInv.decodeHeader_inv {s : State} (h : s.DataInv) (hp : s.phase = .idle) (hj : s.job = .noCommand)
    (cfg : Config) (b : List Byte) : (decodeHeader cfg b s).Inv := by
  unfold decodeHeader
  cases ht : headerStage cfg b s with
  | error t => exact h.headerStage_error ht
  | ok t =>
    obtain ⟨ht, -, htp, htj, -⟩ := h.headerStage_ok ht
    exact ht.inv_of_idle (htp.trans hp) (htj.trans hj)

theorem State.DataInv.disassemble_inv {s : State} (h : s.DataInv) (hout : s.out = []) (code : List Byte) (base : Word)
    (low high : Option Nat) : (disassemble code base low high s).Inv := by
  unfold disassemble
  dsimp only
  split
  next => exact h.raise_inv _
  next hhigh =>
    have hcode : State.DataInv { s with input := { s.input with code := Memory.ofBytes code } } :=
      { h with codeWf := Memory.wf_ofBytes code }
    exact hcode.startWalk_inv base (.inl rfl) hout (by simpa using hhigh) (fun hj => nomatch hj)

theorem State.DataInv.analyze_inv {s : State} (h : s.DataInv) (hp : s.phase = .idle) (hj : s.job = .noCommand)
    (hout : s.out = []) (cfg : Config) (file : List Byte) (name : String) : (analyze cfg file name s).Inv := by
  have habs : State.DataInv { s with tr := { s.tr with present := false } } :=
    { h with trWf := TuneRegs.wf_absent h.trWf }
  unfold analyze
  cases ht : headerStage cfg file { s with tr := { s.tr with present := false } } with
  | error t => exact habs.headerStage_error ht
  | ok t =>
    obtain ⟨ht, hhdr, htp, htj, hto⟩ := habs.headerStage_ok ht
    dsimp only
    split
    next hno => cases hhdr.symm.trans hno
    next hd hsome =>
      split
      · exact State.DataInv.inv_of_idle { ht with trWf := tuneFields_wf cfg name _ _ true } (htp.trans hp)
          (htj.trans hj)
      · exact
          { ht with
            trWf := tuneFields_wf cfg name _ _ false
            codeWf := Memory.wf_ofBytes _
            running := fun hrun => nomatch (htp.trans hp).symm.trans hrun
            waiting := fun _ => .inr rfl
            due := fun _ => ⟨Option.isSome_iff_exists.mpr ⟨hd, hsome⟩, hto.trans hout⟩
            analyzing := fun _ => ⟨rfl, rfl⟩ }

/-- The due stage of `analyze` starts its walk with the computed fields in an absent record. -/
theorem State.Inv.acceptStage_inv {s t : State} (h : s.Inv) (hj : s.job = .analyzeDue)
    (ht : acceptStage s = .next t) : t.Inv := by
  obtain ⟨hd, -, rfl⟩ := acceptStage_next ht
  obtain ⟨-, hout⟩ := h.due hj
  exact h.dataInv.startWalk_inv hd.loadAddr (.inr rfl) hout le_rfl fun _ => h.analyzing (.inl hj)

theorem takenCommand_inv {s t : State} (h : s.Inv) {r : Request} {rs : List Request} (htakes : s.takes r rs)
    (ht : step s = .next t) : t.Inv := by
  have hdata := h.dataInv.taking r.cfg rs
  obtain ⟨-, hp, hj, -⟩ := id htakes
  obtain ⟨b, -, rfl⟩ | ⟨code, base, low, high, -, rfl⟩ | ⟨file, name, -, rfl⟩ := step_next_of_takes htakes ht
  · exact hdata.decodeHeader_inv hp hj r.cfg b
  · exact hdata.disassemble_inv rfl code base low high
  · exact hdata.analyze_inv hp hj rfl r.cfg file name

/-! ## Every step -/

/-- Settles O58: the reset state is idle, and its buffers are empty and its registers absent. -/
theorem invariantAtReset : Obligations.InvariantAtReset :=
  dataInv_reset.inv_of_idle rfl rfl

/-- Settles O59 by the cases of a step: a reset, a step of the walk, the due stage of `analyze`, waiting, a command. -/
theorem invariantKeptByStep : Obligations.InvariantKeptByStep := by
  intro s t h ht
  obtain ⟨-, hs⟩ | ⟨-, hp, hs⟩ | ⟨hreset, hp, hs⟩ := step_cases s
  · cases hs.symm.trans ht
    exact h.dataInv.applyReset_inv
  · exact runStep_keeps_inv h hp (hs.symm.trans ht)
  · obtain ⟨hj, hi⟩ | ⟨-, -, hi⟩ | ⟨hj, r, rs, hr, -⟩ := idleStep_cases s
    · exact h.acceptStage_inv hj (hi.symm.trans (hs.symm.trans ht))
    · cases hi.symm.trans (hs.symm.trans ht)
      exact h
    · exact takenCommand_inv h ⟨hreset, hp, (h.waiting hp).resolve_right hj, hr⟩ ht

end Sys2Proof.Machine
end

section
/-! Frames of the walk: what a decoded instruction's meaning and a step of a running walk leave unchanged (R41, R66, R274,
R311). -/

namespace Sys2Proof.Machine

/-- Every meaning is a DIS step with the instruction's own opcode, length and operand, also where `unknown` carries a
documented byte, which the ROM's triple does not describe. -/
theorem exec_eq_instrStep_length (i : Instr) (s : State) :
    ∃ mn mode, exec i s = instrStep i.opcode mn mode i.length i.operand s := by
  cases i <;> exact ⟨_, _, rfl⟩

/-- If a meaning answers a next state, a step existed; the instruction fitted and a record of its length was emitted, or it
passed the range and raised `TruncatedInstruction`. -/
theorem exec_next {i : Instr} {s t : State} (h : exec i s = .next t) :
    ∃ off high, s.runningAt off high ∧
      ((∃ r : Record, r.offset = off ∧ r.len = i.length ∧ off + i.length ≤ high ∧ t = s.commit r) ∨
       (high < off + i.length ∧ t = s.raiseTruncated off i.opcode i.length (high - off))) := by
  obtain ⟨mn, mode, hx⟩ := exec_eq_instrStep_length i s
  obtain ⟨off, high, hat, ⟨hfit, ht⟩ | hraise⟩ := instrStep_next (hx.symm.trans h)
  · exact ⟨off, high, hat, .inl ⟨_, rfl, rfl, hfit, ht⟩⟩
  · exact ⟨off, high, hat, .inr hraise⟩

/-- Settles O24: both ends of a meaning, `commit` and `raiseTruncated`, write only the registers named. -/
theorem instructionFrame : Obligations.InstructionFrame := by
  intro i s t h
  obtain ⟨off, high, ⟨-, hoff, hhigh, -⟩, ⟨r, hat, hlen, -, rfl⟩ | ⟨-, rfl⟩⟩ := exec_next h <;>
    refine ⟨rfl, rfl, rfl, rfl, fun _ => rfl, fun _ => rfl, rfl, rfl, rfl, off, hoff, ?_⟩
  · exact .inl ⟨rfl, rfl, rfl, rfl, by simp [hat, hlen], rfl, r, rfl, rfl⟩
  · exact .inr ⟨by simp [hhigh], rfl, rfl, rfl, rfl, rfl⟩

/-- The step of a walk writes neither buffer nor the configuration (R41, R66). -/
theorem runStep_input {s t : State} (hp : s.phase = .disRun) (h : runStep s = .next t) : t.input = s.input := by
  obtain ⟨-, -, -, -, -, rfl⟩ | ⟨off, high, -, ⟨r, -, -, -, rfl⟩ | ⟨b, len, -, rfl⟩⟩ := runStep_next hp h <;> simp

/-- Settles O26: a step of a running walk is the walk's step, which keeps its input and the host's port. -/
theorem walkWritesNoMemory : Obligations.WalkWritesNoMemory := by
  intro s t hreset hp ht
  rw [step_of_disRun hreset hp] at ht
  have hinput := runStep_input hp ht
  obtain ⟨-, -, hhost⟩ := runStep_keeps hp ht
  exact ⟨fun _ => by rw [hinput], fun _ => by rw [hinput], by rw [hinput], hhost⟩

end Sys2Proof.Machine
end

section
/-! The decoder and the encoder undo each other (R95 to R99), and the opcode map and the ROM are one table (R105 to R107).
Both directions go through the cell of the map: its format, the instruction it makes of an operand, and what that
instruction encodes as. -/

namespace Sys2Proof

/-! ## What `decode` answers -/

theorem decode_cons_of_lt {b : Byte} {rest : List Byte} (h : rest.length + 1 < (rom b).len) :
    decode (b :: rest) = .reject (.truncated b (rom b).len (rest.length + 1)) :=
  if_pos h

theorem decode_cons_of_le {b : Byte} {rest : List Byte} (h : (rom b).len ≤ rest.length + 1) :
    decode (b :: rest) =
      .ok (instrOf b (rest.getD 0 0#8) (rest.getD 1 0#8)) (rest.drop ((rom b).len - 1)) :=
  if_neg (Nat.not_lt.mpr h)

/-! ## Operands and their bytes -/

/-- Assembling an operand's own bytes gives it back, whatever follows them (R98). -/
theorem operandOf_bytes (op : Operand) (rest : List Byte) :
    operandOf (op.bytes.length + 1) ((op.bytes ++ rest).getD 0 0#8) ((op.bytes ++ rest).getD 1 0#8) = op := by
  cases op with
  | absent => rfl
  | u8 v => rfl
  | u16 w => exact congrArg Operand.u16 (wordLE_lowByte_highByte w)

/-- The operand assembled for a length has the bytes it was assembled from (R98, R99). -/
theorem bytes_operandOf {len : Nat} (h1 : 1 ≤ len) (h3 : len ≤ 3) {rest : List Byte} (hl : len ≤ rest.length + 1) :
    (operandOf len (rest.getD 0 0#8) (rest.getD 1 0#8)).bytes = rest.take (len - 1) := by
  obtain rfl | rfl | rfl : len = 1 ∨ len = 2 ∨ len = 3 := by omega
  · rfl
  · obtain _ | ⟨b1, rest⟩ := rest
    · simp at hl
    · rfl
  · obtain _ | ⟨b1, _ | ⟨b2, rest⟩⟩ := rest
    · simp at hl
    · simp at hl
    · simp [operandOf, Operand.bytes]

/-! ## The cells of the opcode map -/

/-- The length of a cell's format F1, F2 or F3 (R95); the fallback has length 1 (R172). -/
def Cell.len : Cell → Nat
  | .no | .f1 _ => 1
  | .f2 _ => 2
  | .f3 _ => 3

/-- The instruction that a cell at byte `b` makes of an operand; the fallback where it makes none. -/
def Cell.fill (b : Byte) : Cell → Operand → Instr
  | .f1 i, .absent => i
  | .f2 mk, .u8 v => mk v
  | .f3 mk, .u16 w => mk w
  | _, _ => .unknown b

/-- What a cell makes has the operand it was made of, and an opcode byte that does not depend on that operand. -/
def Cell.uniform : Cell → Prop
  | .no => True
  | .f1 i => i.operand = .absent
  | .f2 mk => ∀ v v', (mk v).parts = ((mk v').opcode, .u8 v)
  | .f3 mk => ∀ w w', (mk w).parts = ((mk w').opcode, .u16 w)

/-- The map and the ROM agree on every byte's length (R106, R107). -/
theorem opcodeCell_len (b : Byte) : (opcodeCell b).len = (rom b).len := by
  revert b
  decide

theorem rom_len_bounds (b : Byte) : 1 ≤ (rom b).len ∧ (rom b).len ≤ 3 := by
  rw [← opcodeCell_len]
  cases opcodeCell b <;> simp [Cell.len]

/-- The map's instruction for a byte is its cell's, filled with the operand of the ROM's length. -/
theorem instrOf_eq_fill (b b1 b2 : Byte) :
    instrOf b b1 b2 = (opcodeCell b).fill b (operandOf (rom b).len b1 b2) := by
  rw [← opcodeCell_len]
  unfold instrOf opcodeCell
  cases (opcodeMap.getD (b.toNat / 16) []).getD (b.toNat % 16) .no <;> rfl

/-- Every well-formed instruction is its operand filled into the cell of its opcode byte. -/
theorem opcodeCell_fill {i : Instr} (hw : i.wf = true) : (opcodeCell i.opcode).fill i.opcode i.operand = i := by
  cases i
  case unknown b =>
    have hno : (opcodeCell b).isNo = true := (opcodeCell_isNo b).trans hw
    show (opcodeCell b).fill b .absent = .unknown b
    cases hc : opcodeCell b <;> simp [hc, Cell.isNo] at hno
    rfl
  all_goals
    simp only [Instr.opcode, Instr.operand, Instr.parts]
    rfl

theorem opcodeMap_uniform : ∀ row ∈ opcodeMap, ∀ c ∈ row, c.uniform := by
  simp [opcodeMap, opcodeRow0, opcodeRow1, opcodeRow2, opcodeRow3, opcodeRow4, opcodeRow5, opcodeRow6, opcodeRow7,
    opcodeRow8, opcodeRow9, opcodeRowA, opcodeRowB, opcodeRowC, opcodeRowD, opcodeRowE, opcodeRowF, Cell.uniform,
    Instr.parts, Instr.opcode, Instr.operand]

theorem opcodeCell_uniform (b : Byte) : (opcodeCell b).uniform :=
  forall_getD (forall_getD (P := fun row => ∀ c ∈ row, Cell.uniform c) opcodeMap_uniform (by simp) _)
    (show Cell.uniform .no from trivial) _

/-- The map's instruction for a byte has that opcode byte, with zeros for the operand's bytes. -/
theorem opcode_instrOf_zero (b : Byte) : (instrOf b 0#8 0#8).opcode = b := by
  revert b
  decide

/-! ## The two directions -/

/-- The opcode byte and the operand of the map's instruction (R96, R98). -/
theorem parts_instrOf (b b1 b2 : Byte) : (instrOf b b1 b2).parts = (b, operandOf (rom b).len b1 b2) := by
  have hu := opcodeCell_uniform b
  have hzero := opcode_instrOf_zero b
  rw [instrOf_eq_fill, ← opcodeCell_len] at hzero ⊢
  cases hc : opcodeCell b <;> rw [hc] at hu hzero
  case no => rfl
  case f1 i => exact Prod.ext hzero hu
  case f2 mk => exact (hu b1 0#8).trans (congrArg (·, _) hzero)
  case f3 mk => exact (hu (wordLE b1 b2) (wordLE 0#8 0#8)).trans (congrArg (·, _) hzero)

@[simp] theorem opcode_instrOf (b b1 b2 : Byte) : (instrOf b b1 b2).opcode = b :=
  congrArg Prod.fst (parts_instrOf b b1 b2)

@[simp] theorem operand_instrOf (b b1 b2 : Byte) : (instrOf b b1 b2).operand = operandOf (rom b).len b1 b2 :=
  congrArg Prod.snd (parts_instrOf b b1 b2)

/-- A well-formed instruction's encoding has the ROM's length (R97). -/
theorem length_eq_rom_len {i : Instr} (hw : i.wf = true) : i.length = (rom i.opcode).len :=
  (Machine.encodedLength i hw).1

@[simp] theorem length_instrOf (b b1 b2 : Byte) : (instrOf b b1 b2).length = (rom b).len := by
  rw [length_eq_rom_len (instrOf_wf b b1 b2), opcode_instrOf]

/-- The map's instruction for an encoded instruction's bytes is that instruction. -/
theorem instrOf_encoded {i : Instr} (hw : i.wf = true) (rest : List Byte) :
    instrOf i.opcode ((i.operand.bytes ++ rest).getD 0 0#8) ((i.operand.bytes ++ rest).getD 1 0#8) = i := by
  rw [instrOf_eq_fill, ← length_eq_rom_len hw, ← length_operand_bytes, operandOf_bytes, opcodeCell_fill hw]

/-- The map's instruction for the bytes at the head of a string encodes as those bytes. -/
theorem encode_instrOf {b : Byte} {rest : List Byte} (h : (rom b).len ≤ rest.length + 1) :
    encode (instrOf b (rest.getD 0 0#8) (rest.getD 1 0#8)) = b :: rest.take ((rom b).len - 1) := by
  obtain ⟨h1, h3⟩ := rom_len_bounds b
  rw [encode, opcode_instrOf, operand_instrOf, bytes_operandOf h1 h3 h]

/-- Settles O12: the operand's bytes assemble to the operand, which fills the opcode byte's cell to the instruction. -/
theorem decodeEncodeRoundTrip : Obligations.DecodeEncodeRoundTrip := by
  intro i rest hw
  have hlen : (rom i.opcode).len = i.operand.bytes.length + 1 := (length_eq_rom_len hw).symm
  have hle : (rom i.opcode).len ≤ (i.operand.bytes ++ rest).length + 1 := by simp [hlen]
  calc decode (encode i ++ rest)
    _ = decode (i.opcode :: (i.operand.bytes ++ rest)) := rfl
    _ = .ok i ((i.operand.bytes ++ rest).drop ((rom i.opcode).len - 1)) := by
      rw [decode_cons_of_le hle, instrOf_encoded hw]
    _ = .ok i rest := by rw [hlen, Nat.add_sub_cancel, List.drop_left]

/-- Settles O13: the bytes taken by the length are the opcode byte and the operand's bytes, and the rest is dropped. -/
theorem encodeDecodeConsumes : Obligations.EncodeDecodeConsumes := by
  intro bytes rest i h
  refine ⟨wf_of_decode h, ?_⟩
  cases bytes with
  | nil => cases h
  | cons b tail =>
    rcases Nat.lt_or_ge (tail.length + 1) (rom b).len with hlt | hge
    · rw [decode_cons_of_lt hlt] at h
      cases h
    · rw [decode_cons_of_le hge] at h
      cases h
      rw [encode_instrOf hge, List.cons_append, List.take_append_drop]

/-- Settles O14: the length the decoder compares with the string is the ROM's for byte 0. -/
theorem decodeLengthByRom : Obligations.DecodeLengthByRom := by
  intro b rest
  refine ⟨decode_cons_of_lt, fun hle => ⟨_, _, decode_cons_of_le hle, opcode_instrOf .., length_instrOf .., ?_,
    operand_instrOf ..⟩⟩
  have := (rom_len_bounds b).1
  rw [List.length_drop]
  omega

/-- Settles O15: each word is evaluated. -/
theorem spelledWordsDecode : Obligations.SpelledWordsDecode := by
  unfold Obligations.SpelledWordsDecode
  decide

/-! ## The map and the packed words -/

/-- Packing the triple unpacked from a stored word gives the word back (R105, R107). -/
theorem pack_rom (b : Byte) : (rom b).pack = romWord b := by
  revert b
  decide

end Sys2Proof

namespace Sys2Proof.Machine

/-- Settles O18: the map's instruction has the byte as its opcode, and its meaning emits the ROM's triple of its opcode. -/
theorem opcodeMapAgreesWithRom : Obligations.OpcodeMapAgreesWithRom := by
  intro b b1 b2
  have hw := instrOf_wf b b1 b2
  refine ⟨opcode_instrOf .., hw, length_instrOf .., operand_instrOf .., pack_rom b, fun s off high hr hfit => ?_⟩
  obtain ⟨-, hx⟩ | ⟨hover, -⟩ := exec_cases hw hr
  · exact ⟨_, _, hx, State.commit_ir .., opcode_instrOf .., by simpa [emittedRecord] using pack_rom b⟩
  · rw [opcode_instrOf] at hover
    omega

end Sys2Proof.Machine
end

section
/-! The header record read backwards and forwards (R90, R164): the encoding of a record is a list of fields of fixed widths,
and the record of a byte string depends on its first 122 bytes and on eight bits of the two after them (R93, R158, R161). -/

namespace Sys2Proof.Machine

/-! ## What `decode_header` answers -/

theorem decodeHeader_ok {cfg : Config} {b : List Byte} (hl : hdrLen ≤ b.length)
    (hm : cfg.strictMagic = false ∨ b.take 5 = cfg.magic.toList) (s : State) :
    decodeHeader cfg b s =
      { s with
        input := { s.input with buf := Memory.ofBytes b }, cur := some hdrLen, hdr := some (headerAt cfg b)
        st := .ok } := by
  rw [decodeHeader, headerStage_ok hl hm]

theorem decodeHeader_invalidMagic {cfg : Config} {b : List Byte} (hl : hdrLen ≤ b.length)
    (hm : ¬ (cfg.strictMagic = false ∨ b.take 5 = cfg.magic.toList)) (s : State) :
    decodeHeader cfg b s =
      ({ s with
        input := { s.input with buf := Memory.ofBytes b }, cur := some hdrLen, hdr := none }).raise
          (.invalidMagic (b.take 5)) := by
  obtain ⟨hlt, -⟩ | ⟨-, -, -, h⟩ | ⟨-, hm', -⟩ := headerStage_outcomes cfg b s
  · omega
  · rw [decodeHeader, h]
  · exact absurd hm' hm

/-! ## The fields of an encoded record -/

/-- The widths of the header's fields in schema order, the reserved bytes last (R90). -/
def headerWidths : List Nat := [5, 1, 1, 1, 2, 2, 2, 32, 32, 32, 2, 8, 2, 1, 1, 4]

/-- The bytes of each field of a header record, in schema order (R90). -/
def headerFields (h : Header) : List (List Byte) :=
  [h.magic, [h.version], [h.totalSongs], [h.startingSong], wordBytes h.loadAddr, wordBytes h.initAddr,
    wordBytes h.playAddr, padText h.title, padText h.artist, padText h.copyright, wordBytes h.ntscSpeed,
    h.bankswitchInit, wordBytes h.palSpeed, [byteOfBits [h.palMode, h.dualMode]],
    [byteOfBits [h.vrc6, h.vrc7, h.fds, h.mmc5, h.namco106, h.fme07]], List.replicate 4 0#8]

theorem encodeHeader_eq_flatten (h : Header) : encodeHeader h = (headerFields h).flatten := by
  simp [encodeHeader, headerFields]

theorem length_padText {bs : List Byte} (h : textWf bs) : (padText bs).length = 32 := by
  have := h.1
  simp [padText]
  omega

theorem headerFields_widths {h : Header} (hw : h.wf) : (headerFields h).map List.length = headerWidths := by
  obtain ⟨hmagic, htitle, hartist, hcopy, hbank, -, -⟩ := hw
  simp [headerFields, headerWidths, wordBytes, hmagic, length_padText htitle, length_padText hartist,
    length_padText hcopy, hbank]

theorem length_encodeHeader {h : Header} (hw : h.wf) : (encodeHeader h).length = hdrLen := by
  rw [encodeHeader_eq_flatten, List.length_flatten, headerFields_widths hw]
  rfl

/-- The bytes of an encoded record at a field's offset and of its width are the field's. -/
theorem encodeHeader_field {h : Header} (hw : h.wf) (k p n : Nat) {field : List Byte}
    (hf : (headerFields h)[k]? = some field) (hp : (headerWidths.take k).sum = p)
    (hn : (headerWidths.take (k + 1)).sum = p + n) : ((encodeHeader h).drop p).take n = field := by
  obtain ⟨hk, rfl⟩ := List.getElem?_eq_some_iff.mp hf
  have := List.drop_take_succ_flatten_eq_getElem (headerFields h) k hk
  rwa [headerFields_widths hw, hp, hn, List.drop_take, Nat.add_sub_cancel_left, ← encodeHeader_eq_flatten] at this

/-! ## Reading the fields back -/

theorem dropWhile_null_of_getLast? {bs : List Byte} (h : bs.getLast? ≠ some 0#8) :
    bs.reverse.dropWhile (· == 0#8) = bs.reverse := by
  rw [← List.head?_reverse] at h
  cases hr : bs.reverse with
  | nil => rfl
  | cons b bs' => simp_all

/-- Trimming takes off the padding and nothing else (R134). -/
theorem trimNulls_padText {bs : List Byte} (h : textWf bs) : trimNulls (padText bs) = bs := by
  have hpad : ∀ b ∈ List.replicate (32 - bs.length) 0#8, (b == 0#8) = true := by simp
  rw [trimNulls, padText, List.reverse_append, List.reverse_replicate, List.dropWhile_append_of_pos hpad,
    dropWhile_null_of_getLast? h.2, List.reverse_reverse]

theorem bitOf_byteOfBits_cons (bit : Bool) (bits : List Bool) {n : Nat} (hn : n < 8) :
    bitOf (byteOfBits (bit :: bits)) n = (2 * (byteOfBits bits).toNat + bit.toNat).testBit n := by
  show (BitVec.ofNat 8 (2 * (byteOfBits bits).toNat + bit.toNat)).getLsbD n = _
  simp only [BitVec.getLsbD_ofNat, hn, decide_true, Bool.true_and]

theorem bitOf_byteOfBits_zero (bit : Bool) (bits : List Bool) : bitOf (byteOfBits (bit :: bits)) 0 = bit := by
  rw [bitOf_byteOfBits_cons bit bits (by omega), Nat.testBit_zero]
  cases bit <;> simp

theorem bitOf_byteOfBits_succ (bit : Bool) (bits : List Bool) {n : Nat} (hn : n + 1 < 8) :
    bitOf (byteOfBits (bit :: bits)) (n + 1) = bitOf (byteOfBits bits) n := by
  have hhalf : (2 * (byteOfBits bits).toNat + bit.toNat) / 2 = (byteOfBits bits).toNat := by
    have := bit.toNat_lt
    omega
  rw [bitOf_byteOfBits_cons bit bits hn, Nat.testBit_succ, hhalf]
  rfl

/-- The bits of a byte made of at most eight bits are those bits. -/
theorem bitOf_byteOfBits (bits : List Bool) {n : Nat} (hn : n < 8) :
    bitOf (byteOfBits bits) n = bits.getD n false := by
  induction bits generalizing n with
  | nil => simp [bitOf, byteOfBits]
  | cons bit bits ih =>
    cases n with
    | zero => exact bitOf_byteOfBits_zero bit bits
    | succ n => simpa using (bitOf_byteOfBits_succ bit bits hn).trans (ih (by omega))

/-- The record read from an encoded record's bytes is the record. -/
theorem headerAt_encodeHeader {cfg : Config} {h : Header} (hw : h.wf) (hv : h.valid = magicValid cfg h.magic) :
    headerAt cfg (encodeHeader h) = h := by
  have field := encodeHeader_field hw
  obtain ⟨-, htitle, hartist, hcopy, -, htv, hntsc⟩ := hw
  simp only [headerAt, field 0 0 5 rfl rfl rfl, field 1 5 1 rfl rfl rfl, field 2 6 1 rfl rfl rfl,
    field 3 7 1 rfl rfl rfl, field 4 8 2 rfl rfl rfl, field 5 10 2 rfl rfl rfl, field 6 12 2 rfl rfl rfl,
    field 7 14 32 rfl rfl rfl, field 8 46 32 rfl rfl rfl, field 9 78 32 rfl rfl rfl, field 10 110 2 rfl rfl rfl,
    field 11 112 8 rfl rfl rfl, field 12 120 2 rfl rfl rfl, field 13 122 1 rfl rfl rfl, field 14 123 1 rfl rfl rfl,
    trimNulls_padText htitle, trimNulls_padText hartist, trimNulls_padText hcopy]
  simp [wordBytes, bitOf_byteOfBits, ← htv, ← hntsc, ← hv]

/-- Settles O40: the encoding has 128 bytes, its record is `h`, and its magic is `h`'s, which is admitted. -/
theorem headerRoundTrip : Obligations.HeaderRoundTrip := by
  intro s cfg h hw hv hstrict
  have hlen := length_encodeHeader hw
  have hmagic : (encodeHeader h).take 5 = h.magic := encodeHeader_field hw 0 0 5 rfl rfl rfl
  have hm : cfg.strictMagic = false ∨ (encodeHeader h).take 5 = cfg.magic.toList :=
    hstrict.imp_right fun hval => by simpa [hmagic, magicValid] using hv.symm.trans hval
  rw [decodeHeader_ok hlen.ge hm]
  exact ⟨hlen, congrArg some (headerAt_encodeHeader hw hv), rfl⟩

/-! ## What the record depends on -/

/-- A field before offset 122 is the same in strings that agree up to there. -/
theorem field_congr {b d : List Byte} (h : b.take 122 = d.take 122) {p n : Nat} (hpn : p + n ≤ 122) :
    (b.drop p).take n = (d.drop p).take n := by
  have inside (l : List Byte) : (l.drop p).take n = ((l.take 122).drop p).take n := by
    rw [List.drop_take, List.take_take, Nat.min_eq_left (by omega)]
  rw [inside b, inside d, h]

theorem getD_take_one_drop (b : List Byte) (p : Nat) : ((b.drop p).take 1).getD 0 0#8 = b.getD p 0#8 := by
  simp [List.getD_eq_getElem?_getD]

/-- The record is that of the first 122 bytes, the two bits of the flags byte and the six of the expansion byte. -/
theorem headerAt_congr (cfg : Config) {b d : List Byte} (h : b.take 122 = d.take 122)
    (hf : ∀ n, n < 2 → bitOf (b.getD 122 0#8) n = bitOf (d.getD 122 0#8) n)
    (he : ∀ n, n < 6 → bitOf (b.getD 123 0#8) n = bitOf (d.getD 123 0#8) n) : headerAt cfg b = headerAt cfg d := by
  simp (disch := omega) only [headerAt, field_congr h, getD_take_one_drop b 122, getD_take_one_drop b 123,
    getD_take_one_drop d 122, getD_take_one_drop d 123, hf, he]

/-- Settles O39: the records are equal, and so are the magics, which alone decide between the record and the error. -/
theorem reservedHeaderBitsIgnored : Obligations.ReservedHeaderBitsIgnored := by
  intro s cfg b d hb hd hbytes hf he
  have h122 : b.take 122 = d.take 122 := by
    apply List.ext_getElem?
    intro n
    by_cases hn : n < 122
    · simpa [List.getElem?_take, hn] using hbytes n hn
    · simp [hn]
  have hmagic : b.take 5 = d.take 5 := field_congr h122 (p := 0) (by omega)
  by_cases hm : cfg.strictMagic = false ∨ b.take 5 = cfg.magic.toList
  · rw [decodeHeader_ok hb hm, decodeHeader_ok hd (hmagic ▸ hm)]
    exact ⟨congrArg some (headerAt_congr cfg h122 hf he), rfl, rfl, rfl⟩
  · rw [decodeHeader_invalidMagic hb hm, decodeHeader_invalidMagic hd (hmagic ▸ hm), hmagic]
    exact ⟨rfl, rfl, rfl, rfl⟩

end Sys2Proof.Machine
end

section
/-! The Byte Cursor (R130 to R137): the bytes a read answers, the one bound that every operation checks, and the position
after a sequence of operations. -/

namespace Sys2Proof.Machine

/-! ## The bytes at the position (R131 to R133) -/

/-- Inside a slice that fits, the byte string has the slice's byte. -/
theorem getElem?_eq_getD_slice {bs : List Byte} {p k i : Nat} (hi : i < k) (hk : p + k ≤ (Memory.ofBytes bs).size) :
    bs[p + i]? = some (((Memory.ofBytes bs).slice p k).getD i 0#8) := by
  rw [Memory.size_ofBytes] at hk
  have hin : p + i < bs.length := by omega
  simp [List.getD_eq_getElem?_getD, List.getElem?_take_of_lt hi, hin]

/-- Settles O49: in bounds, the bytes that the three reads take from the slice at the position are there. -/
theorem cursorReadsInBounds : Obligations.CursorReadsInBounds := by
  intro bs pos n c
  rw [← Memory.size_ofBytes bs, ← Memory.slice_ofBytes bs pos n]
  refine ⟨readRaw_ok (c := c), readRaw_error (c := c), fun h => ?_, readU8_error (c := c), fun h => ?_,
    readU16_error (c := c)⟩
  · exact ⟨_, readU8_ok (c := c) h, getElem?_eq_getD_slice Nat.zero_lt_one h⟩
  · exact ⟨_, _, _, readU16_ok (c := c) h, getElem?_eq_getD_slice Nat.zero_lt_two h,
      getElem?_eq_getD_slice Nat.one_lt_two h, toNat_wordLE _ _⟩

/-! ## Text (R134) -/

theorem trimNulls_eq_rdropWhile (bs : List Byte) : trimNulls bs = bs.rdropWhile (· == 0#8) := rfl

/-- What `trimNulls` removes is a run of nulls at the end. -/
theorem exists_trimNulls_append_replicate (bs : List Byte) : ∃ k, bs = trimNulls bs ++ List.replicate k 0#8 := by
  have hnull : ∀ b ∈ bs.rtakeWhile (· == 0#8), b = 0#8 := fun b hb => by
    simpa using List.mem_rtakeWhile_imp hb
  refine ⟨(bs.rtakeWhile (· == 0#8)).length, ?_⟩
  rw [← List.eq_replicate_of_mem hnull, trimNulls_eq_rdropWhile, List.rdropWhile_append_rtakeWhile]

/-- Settles O50: the value is the bytes read without their trailing nulls, and such a value does not end in one. -/
theorem cursorTextTrimsTrailingNulls : Obligations.CursorTextTrimsTrailingNulls := by
  intro bs pos n c
  rw [← Memory.size_ofBytes bs, ← Memory.slice_ofBytes bs pos n]
  obtain ⟨k, hk⟩ := exists_trimNulls_append_replicate ((Memory.ofBytes bs).slice pos n)
  exact ⟨fun h => ⟨_, k, readText_ok (c := c) h, hk, trimNulls_getLast?_ne _⟩, readText_error (c := c)⟩

/-! ## The bound of every operation (R135, R136) -/

/-- A cursor operation that raises, followed by another. -/
theorem bind_of_error {α β : Type} {m : CursorM α} {f : α → CursorM β} {c d : Cursor} {e : Status}
    (h : m c = .error e d) : (m >>= f) c = .error e d := by
  simp [bind, EStateM.bind, h]

theorem CursorOp.run_ok {op : CursorOp} {c : Cursor} (h : c.pos + op.size ≤ c.buf.size) :
    op.run c = .ok () { c with pos := c.pos + op.size } := by
  cases op with
  | raw n => exact bind_of_ok (readRaw_ok h)
  | u8 => exact bind_of_ok (readU8_ok h)
  | u16 => exact bind_of_ok (readU16_ok h)
  | text n => exact bind_of_ok (readText_ok h)
  | skip n => exact skip_ok h

theorem CursorOp.run_error {op : CursorOp} {c : Cursor} (h : c.buf.size < c.pos + op.size) :
    op.run c = .error (.outOfBounds c.pos op.size c.buf.size) c := by
  cases op with
  | raw n => exact bind_of_error (readRaw_error h)
  | u8 => exact bind_of_error (readU8_error h)
  | u16 => exact bind_of_error (readU16_error h)
  | text n => exact bind_of_error (readText_error h)
  | skip n => exact skip_error h

/-- Settles O51, operation by operation. -/
theorem cursorOutOfBounds : Obligations.CursorOutOfBounds :=
  fun _ _ => ⟨CursorOp.run_error, CursorOp.run_ok⟩

/-! ## The position after a sequence (R137) -/

/-- From a position inside the buffer, a sequence answers with the position moved by the sum of the sizes and still
inside; or it raises `OutOfBounds` at a position inside. -/
theorem runOps_cases (ops : List CursorOp) {c : Cursor} (hc : c.pos ≤ c.buf.size) :
    (c.pos + (ops.map CursorOp.size).sum ≤ c.buf.size ∧
      runOps ops c = .ok () { c with pos := c.pos + (ops.map CursorOp.size).sum }) ∨
    ∃ p n, p ≤ c.buf.size ∧ c.buf.size < p + n ∧
      runOps ops c = .error (.outOfBounds p n c.buf.size) { c with pos := p } := by
  induction ops generalizing c with
  | nil => exact .inl ⟨hc, rfl⟩
  | cons op ops ih =>
    rw [runOps]
    rcases Nat.lt_or_ge c.buf.size (c.pos + op.size) with hlt | hfit
    · exact .inr ⟨c.pos, op.size, hc, hlt, bind_of_error (CursorOp.run_error hlt)⟩
    · rw [bind_of_ok (CursorOp.run_ok hfit), List.map_cons, List.sum_cons, ← Nat.add_assoc]
      exact ih (c := { c with pos := c.pos + op.size }) hfit

/-- Settles O52: an attached cursor stands at 0, inside every buffer. -/
theorem cursorPositionLaw : Obligations.CursorPositionLaw := by
  intro buf ops
  obtain ⟨hin, h⟩ | ⟨p, n, hin, hlt, h⟩ := runOps_cases ops (c := Cursor.attach buf) (Nat.zero_le _) <;> rw [h]
  · exact ⟨Nat.zero_add _, hin, rfl⟩
  · exact ⟨hin, rfl, n, rfl, hlt⟩

end Sys2Proof.Machine
end

section
/-! The step that takes a `decode_header` (R140 to R162): how it ends, the fields of its record from the bytes of the schema,
and the bits of the flags and expansion bytes. -/

namespace Sys2Proof.Machine

/-! ## How the step ends -/

theorem decodeHeader_truncated (cfg : Config) {b : List Byte} (hl : b.length < hdrLen) (s : State) :
    decodeHeader cfg b s = ({ s with hdr := none }).raise (.truncatedInput b.length) := by
  rw [decodeHeader, headerStage, if_pos hl]

section

variable {s : State} {cfg : Config} {b : List Byte} {rs : List Request}

theorem step_decodeHeader (h : s.takes ⟨cfg, .decodeHeader b⟩ rs)
    (hmax : ∀ max, cfg.maxBufLen = some max → b.length ≤ max) :
    step s = .next (decodeHeader cfg b (s.taking cfg rs)) := by
  rw [step_of_takes h]
  simp only [issue, lengthRefusal_eq_none hmax]
  rfl

/-- On at least 128 bytes with an admitted magic, the step stores the record of the bytes and ends the command `OK`. -/
theorem step_decodeHeader_ok (h : s.takes ⟨cfg, .decodeHeader b⟩ rs)
    (hmax : ∀ max, cfg.maxBufLen = some max → b.length ≤ max)
    (hm : cfg.strictMagic = false ∨ b.take 5 = cfg.magic.toList) (hl : hdrLen ≤ b.length) :
    ∃ t, step s = .next t ∧ t.hdr = some (headerAt cfg b) ∧ t.st = .ok ∧ t.cur = some hdrLen ∧ t.phase = .idle := by
  obtain ⟨-, hidle, -⟩ := id h
  refine ⟨_, step_decodeHeader h hmax, ?_⟩
  rw [decodeHeader_ok hl hm]
  exact ⟨rfl, rfl, rfl, hidle⟩

end

/-- Settles O38: the length check comes first, and what it raises writes neither the cursor nor its buffer. -/
theorem shortHeaderTruncated : Obligations.ShortHeaderTruncated := by
  intro s cfg b rs h hmax hl
  refine ⟨_, step_decodeHeader h hmax, ?_⟩
  rw [decodeHeader_truncated cfg hl]
  exact ⟨rfl, rfl, rfl, rfl, rfl, rfl⟩

/-- Settles O37: only strict validation with a bad magic raises; otherwise the record's `valid` is the magic check. -/
theorem magicChecked : Obligations.MagicChecked := by
  intro s cfg b rs h hmax hl
  constructor
  · intro hstrict hbad
    refine ⟨_, step_decodeHeader h hmax, ?_⟩
    rw [decodeHeader_invalidMagic hl (by simp [hstrict, hbad])]
    exact ⟨rfl, rfl, rfl⟩
  · intro hm
    obtain ⟨t, hstep, hhdr, hst, -⟩ := step_decodeHeader_ok h hmax hm hl
    exact ⟨t, _, hstep, hst, hhdr, decide_eq_true_iff⟩

/-! ## The fields that are read as they stand (R142 to R153) -/

/-- The two bytes at an offset read as a word, low byte first (R133). -/
theorem toNat_wordLE_take_drop (b : List Byte) (p : Nat) :
    (wordLE (((b.drop p).take 2).getD 0 0#8) (((b.drop p).take 2).getD 1 0#8)).toNat =
      (b.getD p 0#8).toNat + 256 * (b.getD (p + 1) 0#8).toNat := by
  rw [toNat_wordLE]
  simp [List.getD_eq_getElem?_getD]

/-- A text field is its bytes without the nulls that pad it, and it does not end in one (R134). -/
theorem trimNulls_isText (raw : List Byte) :
    (∃ k, raw = trimNulls raw ++ List.replicate k 0#8) ∧ (trimNulls raw).getLast? ≠ some 0#8 :=
  ⟨exists_trimNulls_append_replicate raw, trimNulls_getLast?_ne raw⟩

/-- Settles O35: the record is `headerAt` of the bytes, whose fields are a slice, a byte, a word or a text each. -/
theorem decodeHeaderFields : Obligations.DecodeHeaderFields := by
  intro s cfg b rs h hmax hm hl u8 u16 isText
  obtain ⟨t, hstep, hhdr, hst, hcur, hidle⟩ := step_decodeHeader_ok h hmax hm hl
  have byte := getD_take_one_drop b
  have word := toNat_wordLE_take_drop b
  have text (p : Nat) : isText p (trimNulls ((b.drop p).take 32)) := trimNulls_isText _
  exact ⟨t, _, hstep, hhdr, hst, hcur, hidle, rfl, byte 5, byte 6, byte 7, word 8, word 10, word 12, text 14, text 46,
    text 78, word 110, rfl, word 120⟩

/-! ## The flags and expansion bytes (R154 to R157) -/

theorem bitOf_eq_true_iff (b : Byte) (n : Nat) : bitOf b n = true ↔ b.toNat / 2 ^ n % 2 = 1 := by
  rw [bitOf, BitVec.getLsbD, Nat.testBit_eq_decide_div_mod_eq, decide_eq_true_iff]

/-- The truth table of R155. -/
theorem tvStandardOf_eq_PAL_iff (palMode dualMode : Bool) :
    tvStandardOf palMode dualMode = .PAL ↔ palMode = true ∧ dualMode = false := by
  cases palMode <;> cases dualMode <;> decide

theorem ntscModeOf_eq_true_iff (tv : TvStandard) : ntscModeOf tv = true ↔ tv = .NTSC :=
  decide_eq_true_iff

/-- The byte that `headerAt` reads at an offset inside the string. -/
theorem getD_take_one_drop_of_getElem? {b : List Byte} {p : Nat} {v : Byte} (h : b[p]? = some v) :
    ((b.drop p).take 1).getD 0 0#8 = v := by
  rw [getD_take_one_drop, List.getD_eq_getElem?_getD, h, Option.getD_some]

/-- Settles O36: each flag of the record is a bit of one of the two bytes, and the derived fields are read off the flags
byte's two. -/
theorem decodeHeaderFlags : Obligations.DecodeHeaderFlags := by
  intro s cfg b rs f e h hmax hm hl hf he
  obtain ⟨t, hstep, hhdr, -⟩ := step_decodeHeader_ok h hmax hm hl
  refine ⟨t, _, hstep, hhdr, ?_⟩
  simp only [headerAt, getD_take_one_drop_of_getElem? hf, getD_take_one_drop_of_getElem? he]
  have flag := bitOf_eq_true_iff f
  have chip := bitOf_eq_true_iff e
  exact ⟨by simpa using flag 0, flag 1, tvStandardOf_eq_PAL_iff _ _, ntscModeOf_eq_true_iff _,
    by simpa using chip 0, chip 1, chip 2, chip 3, chip 4, chip 5⟩

end Sys2Proof.Machine
end

section
/-! The opcode ROM (R107, R170 to R181): which bytes take the fallback entry, that the mode fixes the length, that a
documented byte is the only one with its entry; and the row of a well-formed instruction, from its ROM entry (R274). -/

namespace Sys2Proof

/-! ## The fallback (R172, R181) -/

/-- The bytes of R108 are those that the ROM gives no mnemonic. -/
theorem undocumented_iff_mn_eq_unknown (b : Byte) : undocumented.contains b.toNat = true ↔ (rom b).mn = .unknown := by
  rw [← opcodeCell_isNo]
  revert b
  decide

theorem undocumented_nodup : undocumented.Nodup := by decide

/-- The bytes that the ROM gives a mnemonic: `Obligations.RomPairsUnique`'s explicit ones. -/
def documentedBytes : List Nat := (List.range 256).filter fun n => (rom (BitVec.ofNat 8 n)).mn ≠ .unknown

theorem toNat_mem_documentedBytes {b : Byte} : b.toNat ∈ documentedBytes ↔ (rom b).mn ≠ .unknown := by
  simp [documentedBytes, b.isLt]

theorem documentedBytes_eq_filter_undocumented :
    documentedBytes = (List.range 256).filter fun n => !undocumented.contains n := by
  refine List.filter_congr fun n hn => ?_
  have hbyte : (BitVec.ofNat 8 n).toNat = n := Nat.mod_eq_of_lt (List.mem_range.mp hn)
  have hiff := undocumented_iff_mn_eq_unknown (BitVec.ofNat 8 n)
  rw [hbyte] at hiff
  simp [← hiff]

/-- Of the 256 bytes, the 105 undocumented ones leave 151. -/
theorem length_documentedBytes : documentedBytes.length = 151 := by
  have hlt : ∀ n ∈ undocumented, n < 256 := by decide
  have hperm : ((List.range 256).filter undocumented.contains).Perm undocumented :=
    (List.perm_ext_iff_of_nodup (List.nodup_range.filter _) undocumented_nodup).mpr fun n => by
      simpa using hlt n
  have hsum := List.length_eq_length_filter_add (l := List.range 256) undocumented.contains
  rw [hperm.length_eq, ← documentedBytes_eq_filter_undocumented, List.length_range] at hsum
  exact Nat.add_left_cancel hsum.symm

/-- Only the fallback entry has no mode. -/
theorem mn_eq_unknown_of_mode {b : Byte} (h : (rom b).mode = .unknown) : (rom b).mn = .unknown := by
  revert b
  decide

/-! ## Lengths (R173, R174) -/

/-- The mode of a ROM entry fixes its length: both are the length of the map's instruction for the byte. -/
theorem rom_len_eq_mode_length (b : Byte) : (rom b).len = (rom b).mode.length := by
  obtain ⟨hlen, hmode⟩ := Machine.encodedLength (instrOf b 0#8 0#8) (instrOf_wf b 0#8 0#8)
  rw [opcode_instrOf] at hlen hmode
  exact hlen.symm.trans hmode

/-- Settles O16: the ROM's lengths are those of the modes, and the map of R173 is read mode by mode. -/
theorem romEntriesConsistent : Obligations.RomEntriesConsistent := by
  refine ⟨fun b => ⟨rom_len_eq_mode_length b, rom_len_bounds b⟩, fun m => ?_, fun m => ?_, fun m => ?_⟩ <;>
    cases m <;> simp [Mode.length]

/-! ## One byte per documented entry (R181) -/

set_option maxRecDepth 2000 in
/-- The word of a documented byte stands in the ROM at that byte first. -/
theorem idxOf_romWord {b : Byte} (h : (rom b).mn ≠ .unknown) : romWords.idxOf (romWord b).toNat = b.toNat := by
  revert b
  decide

/-- The mnemonic and the mode determine the word, since they determine the length. -/
theorem romWord_congr {b c : Byte} (hmn : (rom b).mn = (rom c).mn) (hmode : (rom b).mode = (rom c).mode) :
    romWord b = romWord c := by
  rw [← pack_rom b, ← pack_rom c, RomEntry.pack, RomEntry.pack, rom_len_eq_mode_length, rom_len_eq_mode_length, hmn,
    hmode]

/-- Two bytes with one (mnemonic, mode) pair, which is not the fallback's, are the same byte: each is the first place of
the one word. -/
theorem rom_pair_injective {b c : Byte} (hb : (rom b).mn ≠ .unknown) (hmn : (rom b).mn = (rom c).mn)
    (hmode : (rom b).mode = (rom c).mode) : b = c := by
  apply BitVec.eq_of_toNat_eq
  rw [← idxOf_romWord hb, ← idxOf_romWord (hmn ▸ hb), romWord_congr hmn hmode]

/-- Settles O17: a byte is explicit when the ROM gives it a mnemonic, so the others are the undocumented ones. -/
theorem romPairsUnique : Obligations.RomPairsUnique := by
  refine ⟨length_documentedBytes, fun b hb => ?_, fun b hb hmode => ?_, fun b c hb => ?_⟩ <;>
    rw [← documentedBytes, toNat_mem_documentedBytes] at hb
  · exact Machine.rom_of_undocumented b ((undocumented_iff_mn_eq_unknown b).mpr (not_not.mp hb))
  · exact hb (mn_eq_unknown_of_mode hmode)
  · exact rom_pair_injective hb

end Sys2Proof

namespace Sys2Proof.Machine

/-! ## The row of a well-formed instruction (R274) -/

section

variable {s : State} {off high : Nat} {i : Instr}

/-- A step of the walk runs the meaning of the instruction decoded at `off`. -/
theorem runStep_of_decode {rest : List Byte} (hr : s.runningAt off high)
    (hd : decode (fetchWindow s.input.code off high) = .ok i rest) :
    runStep s = mapNext State.finishIfDone (exec i s) := by
  obtain ⟨-, hoff, hhigh, hlt⟩ := hr
  simp [runStep, hoff, hhigh, Nat.not_le.mpr hlt, hd]

/-- Where the buffer holds a well-formed instruction that fits the range, it is the one decoded. -/
theorem decode_fetchWindow {code : Memory} (hw : i.wf = true) (hfit : off + i.length ≤ high)
    (hbytes : code.slice off i.length = encode i) : ∃ rest, decode (fetchWindow code off high) = .ok i rest := by
  have hmax : i.length ≤ 3 := length_eq_rom_len hw ▸ (rom_len_bounds i.opcode).2
  have hhead : (fetchWindow code off high).take i.length = encode i :=
    (Memory.slice_take code off (by omega)).trans hbytes
  rw [← List.take_append_drop i.length (fetchWindow code off high), hhead]
  exact ⟨_, decodeEncodeRoundTrip i _ hw⟩

/-- After a record that ends before `high` the walk runs on at its end; after one that ends at `high` it is over. -/
theorem commit_finishIfDone_cases (hr : s.runningAt off high) (r : Record) (hat : r.offset = off) :
    (off + r.len < high → (s.commit r).finishIfDone.runningAt (off + r.len) high) ∧
    (off + r.len = high → (s.commit r).finishIfDone.phase = .idle ∧ (s.commit r).finishIfDone.st = .ok ∧
      (s.commit r).finishIfDone.dis.off = some high) := by
  obtain ⟨hp, -, hhigh, -⟩ := hr
  subst hat
  constructor
  · intro hlt
    rw [State.finishIfDone_of_lt (s.commit r) rfl hhigh hlt]
    exact ⟨hp, rfl, hhigh, hlt⟩
  · intro heq
    rw [State.finishIfDone_of_le (s.commit r) hp rfl hhigh heq.ge]
    exact ⟨rfl, rfl, congrArg some heq⟩

end

/-- The row of a well-formed instruction holds with the entry and the word that the ROM has for its opcode byte. -/
theorem rowHolds_of_rom {i : Instr} {word : BitVec 12} {mn : Mnemonic} {mode : Mode} (hw : i.wf = true)
    (hword : romWord i.opcode = word) (hrom : rom i.opcode = ⟨mn, mode, i.length⟩) :
    RowHolds i i.opcode word mn mode i.operand := by
  refine ⟨rfl, hword, hrom, fun s off high hr hfit => ?_⟩
  have hexec : exec i s = .next (s.commit ⟨mn, mode, i.length, i.operand, off, i.opcode⟩) := by
    rw [exec_eq_instrStep i hw, hrom]
    exact instrStep_fits hr _ _ _ _ hfit
  have hend := commit_finishIfDone_cases hr ⟨mn, mode, i.length, i.operand, off, i.opcode⟩ rfl
  refine ⟨hexec, fun hreset hbytes => ⟨_, ?_, rfl, hend⟩⟩
  obtain ⟨rest, hd⟩ := decode_fetchWindow hw hfit hbytes
  rw [step_of_disRun hreset hr.1, runStep_of_decode hr hd, hexec]
  rfl

/-- A one-byte instruction never passes the range, so its meaning neither raises nor ends the walk (R279). -/
theorem exec_next_of_length_one {i : Instr} (h1 : i.length = 1) {s t : State} (h : exec i s = .next t) :
    t.st = s.st ∧ t.phase = s.phase := by
  obtain ⟨off, high, ⟨-, -, -, hlt⟩, ⟨r, -, -, -, rfl⟩ | ⟨hover, -⟩⟩ := exec_next h
  · exact ⟨rfl, rfl⟩
  · omega

/-- Settles O11: an undocumented byte's row is that of the fallback entry, whose length is 1. -/
theorem unknownBytesFallBack : Obligations.UnknownBytesFallBack := by
  refine ⟨undocumented_iff_mn_eq_unknown, rfl, undocumented_nodup, fun b hb => ?_,
    fun b s t => exec_next_of_length_one rfl⟩
  have hrom := rom_of_undocumented b hb
  have hword : romWord b = 0x001 := by
    rw [← pack_rom, hrom]
    rfl
  exact rowHolds_of_rom (i := .unknown b) hb hword hrom

end Sys2Proof.Machine
end

section
/-! The rows of the opcode table, read off the packed ROM words (R105, R107): the bytes a mnemonic decodes from, the bytes
that take the fallback, and an instruction's row from its word; and with them ADC, SBC, AND, ORA, EOR (R200 to R204) and
BIT, CMP, CPX, CPY (R205 to R208). -/

namespace Sys2Proof.Machine

/-! ## The bytes of a mnemonic -/

theorem length_romWords : romWords.length = 256 := by
  simp only [romWords, List.length_append, List.length_cons, List.length_nil]

/-- The places of the ROM whose word stores the mnemonic, found in one pass over the table. -/
def opcodesOf (mn : Mnemonic) : List Byte :=
  (romWords.zipIdx.filter fun p => (unpackRom (BitVec.ofNat 12 p.1)).mn = mn).map fun p => BitVec.ofNat 8 p.2

theorem mem_opcodesOf {mn : Mnemonic} {b : Byte} : b ∈ opcodesOf mn ↔ (rom b).mn = mn := by
  simp only [opcodesOf, List.mem_map, List.mem_filter, List.mem_zipIdx_iff_getElem?, decide_eq_true_eq, Prod.exists]
  constructor
  · rintro ⟨w, n, ⟨hw, hmn⟩, rfl⟩
    have hn : n < 256 := length_romWords ▸ (List.getElem?_eq_some_iff.mp hw).1
    simp [rom, romWord, Nat.mod_eq_of_lt hn, hw, hmn]
  · have hb : b.toNat < romWords.length := length_romWords ▸ b.isLt
    exact fun hmn => ⟨_, b.toNat, ⟨by simp [hb], hmn⟩, by simp⟩

/-- To decode from exactly the listed bytes is to list, once each and in any order, the places of the mnemonic. -/
theorem decodesFrom_of_perm {mn : Mnemonic} {id : Nat} {opcodes : List Byte} (hid : mn.id = id)
    (hnodup : opcodes.Nodup) (hperm : opcodes.Perm (opcodesOf mn)) : DecodesFrom mn id opcodes :=
  ⟨hid, hnodup, fun _ => mem_opcodesOf.symm.trans hperm.mem_iff.symm⟩

theorem fallBack_of_undocumented {bs : List Byte} (h : ∀ b ∈ bs, undocumented.contains b.toNat = true) : FallBack bs :=
  fun b hb => rom_of_undocumented b (h b hb)

/-! ## The row of a word -/

/-- The row of a well-formed instruction holds with the word stored at its opcode byte and the entry that word packs: the
mode fixes the length, so nothing is asked of the operand. -/
theorem rowHolds_of_word {i : Instr} {word : BitVec 12} {mn : Mnemonic} {mode : Mode} (hw : i.wf = true)
    (hword : romWord i.opcode = word) (hentry : unpackRom word = ⟨mn, mode, mode.length⟩) :
    RowHolds i i.opcode word mn mode i.operand := by
  have hrom : rom i.opcode = ⟨mn, mode, mode.length⟩ := (congrArg unpackRom hword).trans hentry
  have hlen : i.length = mode.length := by rw [length_eq_rom_len hw, hrom]
  exact rowHolds_of_rom hw hword (hlen ▸ hrom)

/-! ## The families -/

/-- Settles O1, mnemonic by mnemonic: the bytes it decodes from, then its eight rows, each read off its ROM word. -/
theorem arithmeticLogicRows : Obligations.ArithmeticLogicRows := by
  intro v w
  refine ⟨decodesFrom_of_perm rfl (by decide) (by decide), ?_, ?_, ?_, ?_, ?_, ?_, ?_, ?_,
    decodesFrom_of_perm rfl (by decide) (by decide), fallBack_of_undocumented (by decide),
      ?_, ?_, ?_, ?_, ?_, ?_, ?_, ?_,
    decodesFrom_of_perm rfl (by decide) (by decide), ?_, ?_, ?_, ?_, ?_, ?_, ?_, ?_,
    decodesFrom_of_perm rfl (by decide) (by decide), ?_, ?_, ?_, ?_, ?_, ?_, ?_, ?_,
    decodesFrom_of_perm rfl (by decide) (by decide), ?_, ?_, ?_, ?_, ?_, ?_, ?_, ?_⟩
  all_goals exact rowHolds_of_word rfl rfl (by decide)

/-- Settles O2, mnemonic by mnemonic: the bytes it decodes from, its undocumented neighbours, then its rows. -/
theorem bitCompareRows : Obligations.BitCompareRows := by
  intro v w
  refine ⟨decodesFrom_of_perm rfl (by decide) (by decide), fallBack_of_undocumented (by decide), ?_, ?_,
    decodesFrom_of_perm rfl (by decide) (by decide), ?_, ?_, ?_, ?_, ?_, ?_, ?_, ?_,
    decodesFrom_of_perm rfl (by decide) (by decide), fallBack_of_undocumented (by decide), ?_, ?_, ?_,
    decodesFrom_of_perm rfl (by decide) (by decide), fallBack_of_undocumented (by decide), ?_, ?_, ?_⟩
  all_goals exact rowHolds_of_word rfl rfl (by decide)

end Sys2Proof.Machine
end

section
/-! The rows of the shifts and rotates ASL, LSR, ROL, ROR (R210 to R213) and of the increments and decrements INC, DEC, INX,
INY, DEX, DEY (R214 to R219), read off the packed ROM words. -/

namespace Sys2Proof.Machine

/-- For a mnemonic with one row, such as INX. -/
theorem decodesFrom_singleton {mn : Mnemonic} {id : Nat} {b : Byte} (hid : mn.id = id) (h : opcodesOf mn = [b]) :
    DecodesFrom mn id [b] :=
  decodesFrom_of_perm hid (List.nodup_singleton b) (.of_eq h.symm)

/-- Settles O3, mnemonic by mnemonic: the bytes it decodes from, then the accumulator row and the four rows in memory. -/
theorem shiftRotateRows : Obligations.ShiftRotateRows := by
  intro v w
  refine ⟨decodesFrom_of_perm rfl (by decide) (by decide), ?_, ?_, ?_, ?_, ?_,
    decodesFrom_of_perm rfl (by decide) (by decide), ?_, ?_, ?_, ?_, ?_,
    decodesFrom_of_perm rfl (by decide) (by decide), ?_, ?_, ?_, ?_, ?_,
    decodesFrom_of_perm rfl (by decide) (by decide), ?_, ?_, ?_, ?_, ?_⟩
  all_goals exact rowHolds_of_word rfl rfl (by decide)

/-- Settles O4, mnemonic by mnemonic: INC and DEC, whose rules list the middle two bytes in the other order than the ROM,
with the byte where an accumulator form would be (0x1A, 0x3A) and four rows in memory each; then the four register forms,
one byte each. -/
theorem incrementDecrementRows : Obligations.IncrementDecrementRows := by
  intro v w
  refine ⟨decodesFrom_of_perm rfl (by decide) (.cons _ (.swap 0xEE 0xF6 _)),
      fallBack_of_undocumented (by decide), ?_, ?_, ?_, ?_,
    decodesFrom_of_perm rfl (by decide) (.cons _ (.swap 0xCE 0xD6 _)),
      fallBack_of_undocumented (by decide), ?_, ?_, ?_, ?_,
    decodesFrom_singleton rfl rfl, ?_, decodesFrom_singleton rfl rfl, ?_,
    decodesFrom_singleton rfl rfl, ?_, decodesFrom_singleton rfl rfl, ?_⟩
  all_goals exact rowHolds_of_word rfl rfl (by decide)

end Sys2Proof.Machine
end

section
/-! The rows of the loads LDA, LDX, LDY (R220 to R222), of the stores STA, STX, STY (R223 to R225) and of the transfers
and stack instructions TAX, TAY, TSX, TXA, TXS, TYA, PHA, PHP, PLA, PLP (R226 to R235), read off the packed ROM
words. -/

namespace Sys2Proof.Machine

/-- For a mnemonic whose places in the ROM are known, so that only two short lists are compared. -/
theorem decodesFrom_of_opcodesOf_eq {mn : Mnemonic} {id : Nat} {opcodes places : List Byte} (hid : mn.id = id)
    (hplaces : opcodesOf mn = places) (hnodup : opcodes.Nodup) (hperm : opcodes.Perm places) :
    DecodesFrom mn id opcodes :=
  decodesFrom_of_perm hid hnodup (hplaces ▸ hperm)

/-! ## Loads (R220 to R222)

Their rules list the bytes mode by mode, the ROM in ascending order. `decide` runs too deep when it compares those lists
while it searches the table, so the search is done first. -/

theorem opcodesOf_LDA : opcodesOf .LDA = [0xA1, 0xA5, 0xA9, 0xAD, 0xB1, 0xB5, 0xB9, 0xBD] := rfl

theorem opcodesOf_LDX : opcodesOf .LDX = [0xA2, 0xA6, 0xAE, 0xB6, 0xBE] := rfl

theorem opcodesOf_LDY : opcodesOf .LDY = [0xA0, 0xA4, 0xAC, 0xB4, 0xBC] := rfl

/-- Settles O5, mnemonic by mnemonic: LDA with its eight modes, then LDX and LDY with five each, LDX indexed by Y where
LDY is indexed by X. -/
theorem loadRows : Obligations.LoadRows := by
  intro v w
  refine ⟨decodesFrom_of_opcodesOf_eq rfl opcodesOf_LDA (by decide) (by decide), ?_, ?_, ?_, ?_, ?_, ?_, ?_, ?_,
    decodesFrom_of_opcodesOf_eq rfl opcodesOf_LDX (by decide) (by decide), ?_, ?_, ?_, ?_, ?_,
    decodesFrom_of_opcodesOf_eq rfl opcodesOf_LDY (by decide) (by decide), ?_, ?_, ?_, ?_, ?_⟩
  all_goals exact rowHolds_of_word rfl rfl (by decide)

/-! ## Stores (R223 to R225) -/

/-- Settles O6, mnemonic by mnemonic: each decodes from its bytes, and the byte where an immediate STA (0x89), an
absolute-Y STX (0x9E) or an absolute-X STY (0x9C) would be takes the fallback; then its rows. -/
theorem storeRows : Obligations.StoreRows := by
  intro v w
  refine ⟨decodesFrom_of_perm rfl (by decide) (by decide), fallBack_of_undocumented (by decide),
      ?_, ?_, ?_, ?_, ?_, ?_, ?_,
    decodesFrom_of_perm rfl (by decide) (by decide), fallBack_of_undocumented (by decide), ?_, ?_, ?_,
    decodesFrom_of_perm rfl (by decide) (by decide), fallBack_of_undocumented (by decide), ?_, ?_, ?_⟩
  all_goals exact rowHolds_of_word rfl rfl (by decide)

/-! ## Transfers and stack (R226 to R235) -/

/-- Settles O7: the six transfers, then the four stack instructions, each with one byte and one implied row. -/
theorem transferStackRows : Obligations.TransferStackRows := by
  refine ⟨decodesFrom_singleton rfl rfl, ?_, decodesFrom_singleton rfl rfl, ?_,
    decodesFrom_singleton rfl rfl, ?_, decodesFrom_singleton rfl rfl, ?_,
    decodesFrom_singleton rfl rfl, ?_, decodesFrom_singleton rfl rfl, ?_,
    decodesFrom_singleton rfl rfl, ?_, decodesFrom_singleton rfl rfl, ?_,
    decodesFrom_singleton rfl rfl, ?_, decodesFrom_singleton rfl rfl, ?_⟩
  all_goals exact rowHolds_of_word rfl rfl (by decide)

end Sys2Proof.Machine
end

section
/-! The rows of the jumps, the call, the returns, BRK and NOP (R240 to R245), of the branches (R246 to R253) and of the
flag instructions (R254 to R260), read off the packed ROM words. -/

namespace Sys2Proof.Machine

/-- Settles O8, mnemonic by mnemonic: JMP with its two modes; JSR, RTS, RTI and BRK, one byte each; then NOP, whose
undocumented neighbours 0x1A, 0x3A and 0x80 take the fallback. -/
theorem jumpReturnBreakRows : Obligations.JumpReturnBreakRows := by
  intro w
  refine ⟨decodesFrom_of_perm rfl (by decide) (by decide), ?_, ?_,
    decodesFrom_singleton rfl rfl, ?_, decodesFrom_singleton rfl rfl, ?_,
    decodesFrom_singleton rfl rfl, ?_, decodesFrom_singleton rfl rfl, ?_,
    decodesFrom_singleton rfl rfl, fallBack_of_undocumented (by decide), ?_⟩
  all_goals exact rowHolds_of_word rfl rfl (by decide)

/-- Settles O9: the eight branches, each with one byte and one relative row, whose operand is the byte as it stands. -/
theorem branchRows : Obligations.BranchRows := by
  intro v
  refine ⟨decodesFrom_singleton rfl rfl, ?_, decodesFrom_singleton rfl rfl, ?_,
    decodesFrom_singleton rfl rfl, ?_, decodesFrom_singleton rfl rfl, ?_,
    decodesFrom_singleton rfl rfl, ?_, decodesFrom_singleton rfl rfl, ?_,
    decodesFrom_singleton rfl rfl, ?_, decodesFrom_singleton rfl rfl, ?_⟩
  all_goals exact rowHolds_of_word rfl rfl (by decide)

/-- Settles O10: the four clears, then the three sets, each with one byte and one implied row. -/
theorem flagInstructionRows : Obligations.FlagInstructionRows := by
  refine ⟨decodesFrom_singleton rfl rfl, ?_, decodesFrom_singleton rfl rfl, ?_,
    decodesFrom_singleton rfl rfl, ?_, decodesFrom_singleton rfl rfl, ?_,
    decodesFrom_singleton rfl rfl, ?_, decodesFrom_singleton rfl rfl, ?_,
    decodesFrom_singleton rfl rfl, ?_⟩
  all_goals exact rowHolds_of_word rfl rfl (by decide)

end Sys2Proof.Machine
end

section
/-! One step of a running walk, told by the bytes at `DIS.off` and the ROM (R273 to R278): the record it emits, the error it
raises, and where the walk goes on. -/

namespace Sys2Proof.Machine

/-! ## The record and the window -/

/-- The ROM's reading of the byte `b` at `off` with the bytes `rest` after it (R274, R275): the record a step emits. -/
def romRecord (off : Nat) (b : Byte) (rest : List Byte) : Record :=
  { mn := (rom b).mn, mode := (rom b).mode, len := (rom b).len
    operand := operandOf (rom b).len (rest.getD 0 0#8) (rest.getD 1 0#8), offset := off, opcode := b }

@[simp] theorem romRecord_len (off : Nat) (b : Byte) (rest : List Byte) : (romRecord off b rest).len = (rom b).len := rfl
@[simp] theorem romRecord_offset (off : Nat) (b : Byte) (rest : List Byte) : (romRecord off b rest).offset = off := rfl

/-- It is the record that the meaning of the decoded instruction emits. -/
theorem emittedRecord_instrOf (off : Nat) (b : Byte) (rest : List Byte) :
    emittedRecord (instrOf b (rest.getD 0 0#8) (rest.getD 1 0#8)) off = romRecord off b rest := by
  simp only [emittedRecord, opcode_instrOf, operand_instrOf, romRecord]

theorem romRecord_wf (off : Nat) (b : Byte) (rest : List Byte) : (romRecord off b rest).wf :=
  emittedRecord_instrOf off b rest ▸ emittedRecord_wf (instrOf_wf b _ _) off

/-- No record reads past the second byte after its opcode byte. -/
theorem romRecord_take (off : Nat) (b : Byte) (rest : List Byte) :
    romRecord off b (rest.take 2) = romRecord off b rest := by
  simp [romRecord, List.getD_eq_getElem?_getD]

theorem Memory.slice_cons {m : Memory} {a n : Nat} {b : Byte} (hb : m.read? a = some b) :
    m.slice a (n + 1) = b :: m.slice (a + 1) n := by
  rw [Memory.slice, hb]

/-- A slice has the length asked for where every byte of it is in the buffer. -/
theorem Memory.length_slice {m : Memory} {a n : Nat} (h : ∀ x, a ≤ x → x < a + n → (m.read? x).isSome = true) :
    (m.slice a n).length = n := by
  induction n generalizing a with
  | zero => rfl
  | succ n ih =>
    obtain ⟨b, hb⟩ := Option.isSome_iff_exists.mp (h a le_rfl (by omega))
    rw [Memory.slice_cons hb, List.length_cons, ih fun x hx hlt => h x (by omega) (by omega)]

/-- What stands in a slice stands in the buffer. -/
theorem Memory.read?_of_getElem?_slice {m : Memory} {a n i : Nat} {v : Byte} (h : (m.slice a n)[i]? = some v) :
    m.read? (a + i) = some v := by
  induction n generalizing a i with
  | zero => simp [Memory.slice] at h
  | succ n ih =>
    cases hb : m.read? a with
    | none => simp [Memory.slice, hb] at h
    | some b =>
      rw [Memory.slice_cons hb] at h
      cases i with
      | zero => exact hb.trans h
      | succ i => exact (congrArg m.read? (by omega)).trans (ih (a := a + 1) (i := i) h)

section

variable {s t : State} {off high : Nat} {b : Byte} {rest : List Byte}

/-- The window of a walk that finds its opcode byte starts with it. -/
theorem fetchWindow_eq_cons {code : Memory} (hlt : off < high) (hb : code.read? off = some b) :
    ∃ rest, fetchWindow code off high = b :: rest := by
  obtain ⟨n, hn⟩ : ∃ n, min 3 (high - off) = n + 1 := ⟨min 3 (high - off) - 1, by omega⟩
  exact ⟨_, by rw [fetchWindow, hn, Memory.slice_cons hb]⟩

/-- An operand byte in the window is the byte at its offset. -/
theorem read?_of_fetchWindow {code : Memory} (hw : fetchWindow code off high = b :: rest) {k : Nat}
    (hk : k < rest.length) : code.read? (off + (k + 1)) = some (rest.getD k 0#8) := by
  apply Memory.read?_of_getElem?_slice (n := min 3 (high - off))
  rw [← fetchWindow, hw, List.getElem?_cons_succ, List.getD_eq_getElem _ _ hk, List.getElem?_eq_getElem hk]

theorem length_fetchWindow_le {code : Memory} (hw : fetchWindow code off high = b :: rest) :
    rest.length + 1 ≤ high - off := by
  have := code.length_slice_le off (min 3 (high - off))
  rw [← fetchWindow, hw, List.length_cons] at this
  omega

/-! ## The step by its window -/

theorem State.runningAt.phase_eq (hr : s.runningAt off high) : s.phase = .disRun := by
  obtain ⟨hp, -⟩ := hr
  exact hp

theorem State.runningAt.lt (hr : s.runningAt off high) : off < high := by
  obtain ⟨-, -, -, hlt⟩ := hr
  exact hlt

/-- Where the window holds the whole instruction, the step emits the ROM's record and tests for the end (R273, R274). -/
theorem runStep_of_window (hr : s.runningAt off high) (hw : fetchWindow s.input.code off high = b :: rest)
    (hle : (rom b).len ≤ rest.length + 1) :
    runStep s = .next (s.commit (romRecord off b rest)).finishIfDone := by
  have hlt := hr.lt
  have hfit : off + (rom b).len ≤ high := by
    have := length_fetchWindow_le hw
    omega
  rw [runStep_of_decode hr (hw ▸ decode_cons_of_le hle), exec_eq_instrStep _ (instrOf_wf b _ _),
    instrStep_fits hr _ _ _ _ (by simpa using hfit), opcode_instrOf, operand_instrOf]
  rfl

/-- Where the window ends before the instruction does, the step is a short fetch. -/
theorem runStep_of_short_window (hr : s.runningAt off high) (hw : fetchWindow s.input.code off high = b :: rest)
    (hlt : rest.length + 1 < (rom b).len) : runStep s = shortFetch b (rom b).len off high s := by
  obtain ⟨-, ho, hh, hlt'⟩ := hr
  simp [runStep, ho, hh, Nat.not_le.mpr hlt', hw, decode_cons_of_lt hlt]

theorem shortFetch_of_lt {len : Nat} (h : high < off + len) :
    shortFetch b len off high s = .next (s.raiseTruncated off b len (high - off)) :=
  if_pos h

/-- An instruction that passes `high` raises, whatever the bytes beyond the range are (R277). -/
theorem runStep_truncated (hr : s.runningAt off high) (hb : s.input.code.read? off = some b)
    (hover : high < off + (rom b).len) :
    runStep s = .next (s.raiseTruncated off b (rom b).len (high - off)) := by
  obtain ⟨rest, hw⟩ := fetchWindow_eq_cons hr.lt hb
  have hle := length_fetchWindow_le hw
  rw [runStep_of_short_window hr hw (by omega), shortFetch_of_lt hover]

/-- A step that finds its opcode byte and answers a next state has emitted a record of the ROM's length, which fits, or
raised. -/
theorem runStep_next_of_read (hr : s.runningAt off high) (hb : s.input.code.read? off = some b)
    (ht : runStep s = .next t) :
    (off + (rom b).len ≤ high ∧ ∃ rest, t = (s.commit (romRecord off b rest)).finishIfDone) ∨
    (high < off + (rom b).len ∧ t = s.raiseTruncated off b (rom b).len (high - off)) := by
  rcases Nat.lt_or_ge high (off + (rom b).len) with hover | hfit
  · rw [runStep_truncated hr hb hover] at ht
    exact .inr ⟨hover, by simpa using ht.symm⟩
  · refine .inl ⟨hfit, ?_⟩
    obtain ⟨rest, hw⟩ := fetchWindow_eq_cons hr.lt hb
    rcases Nat.lt_or_ge (rest.length + 1) (rom b).len with hlt | hle
    · rw [runStep_of_short_window hr hw hlt, shortFetch, if_neg (by omega)] at ht
      cases ht
    · rw [runStep_of_window hr hw hle] at ht
      exact ⟨rest, by simpa using ht.symm⟩

/-- Where the range is inside the buffer, an instruction that fits is wholly in the window. -/
theorem runStep_emits (hr : s.runningAt off high) (hb : s.input.code.read? off = some b)
    (hin : ∀ a, off ≤ a → a < high → (s.input.code.read? a).isSome = true) (hfit : off + (rom b).len ≤ high) :
    ∃ rest, fetchWindow s.input.code off high = b :: rest ∧ (rom b).len ≤ rest.length + 1 ∧
      runStep s = .next (s.commit (romRecord off b rest)).finishIfDone := by
  obtain ⟨rest, hw⟩ := fetchWindow_eq_cons hr.lt hb
  have hlen : (fetchWindow s.input.code off high).length = min 3 (high - off) :=
    Memory.length_slice fun a ha hlt => hin a ha (by omega)
  rw [hw, List.length_cons] at hlen
  have hle : (rom b).len ≤ rest.length + 1 := by
    have := (rom_len_bounds b).2
    omega
  exact ⟨rest, hw, hle, runStep_of_window hr hw hle⟩

/-- Where the range is inside the buffer, the walk's step answers a next state (R271, R283). -/
theorem runStep_answers_of_range (hr : s.runningAt off high)
    (hin : ∀ a, off ≤ a → a < high → (s.input.code.read? a).isSome = true) : ∃ t, runStep s = .next t := by
  obtain ⟨b, hb⟩ := Option.isSome_iff_exists.mp (hin off le_rfl hr.lt)
  rcases Nat.lt_or_ge high (off + (rom b).len) with hover | hfit
  · exact ⟨_, runStep_truncated hr hb hover⟩
  · obtain ⟨rest, -, -, hs⟩ := runStep_emits hr hb hin hfit
    exact ⟨_, hs⟩

end

/-! ## The obligations on a step -/

/-- Settles O19: without a reset the step is the walk's, which runs what the decoder answers. -/
theorem stepRunsDecoded : Obligations.StepRunsDecoded := fun _ _ _ _ _ hreset hr hd =>
  (step_of_disRun hreset hr.phase_eq).trans (runStep_of_decode hr hd)

/-- Settles O20: the record is the ROM's, its operand read from the window of the instruction. -/
theorem stepEmitsRomRecord : Obligations.StepEmitsRomRecord := by
  intro s off high b hreset hr hb hin len
  rw [step_of_disRun hreset hr.phase_eq]
  constructor
  · intro hfit
    obtain ⟨rest, hw, hle, hs⟩ := runStep_emits hr hb hin hfit
    have hbyte {k : Nat} (hk : k + 1 < len) := read?_of_fetchWindow hw (k := k) (by omega)
    refine ⟨_, romRecord off b rest, hs, by simp, by simp, by simp [len], rfl, rfl, rfl, rfl, rfl,
      fun h1 => ?_, fun h2 => ?_, fun h3 => ?_⟩
    · simp [romRecord, operandOf, show (rom b).len = 1 from h1]
    · exact ⟨_, hbyte (k := 0) (by omega), by simp only [romRecord, operandOf, show (rom b).len = 2 from h2]⟩
    · exact ⟨_, _, _, hbyte (k := 0) (by omega), hbyte (k := 1) (by omega),
        by simp only [romRecord, operandOf, show (rom b).len = 3 from h3], toNat_wordLE _ _⟩
  · intro hover
    exact ⟨_, runStep_truncated hr hb hover, rfl, rfl, rfl⟩

/-- Settles O21: the step is `raiseTruncated`; a length of at most 3 leaves 1 or 2 bytes. -/
theorem truncatedInstructionRaised : Obligations.TruncatedInstructionRaised := by
  intro s off high b hreset hr hb hover
  have hmax := (rom_len_bounds b).2
  have hlt := hr.lt
  refine ⟨by omega, by omega, _, (step_of_disRun hreset hr.phase_eq).trans (runStep_truncated hr hb hover), ?_⟩
  exact ⟨rfl, rfl, rfl, rfl, rfl, rfl, rfl, rfl, rfl, rfl, rfl⟩

/-- Settles O22: a meaning is the DIS step of its own length. -/
theorem meaningRaisesWhenTruncated : Obligations.MeaningRaisesWhenTruncated := by
  intro i s off high hr
  obtain ⟨mn, mode, hx⟩ := exec_eq_instrStep_length i s
  have hlt := hr.lt
  rw [hx]
  exact ⟨fun hover => ⟨by omega, instrStep_truncated hr _ _ _ _ hover⟩,
    fun hfit => ⟨_, _, instrStep_fits hr _ _ _ _ hfit, rfl, rfl, rfl⟩⟩

/-- Settles O23: a well-formed instruction's meaning is the DIS step of the ROM's triple, whose length is its own. -/
theorem meaningCompletesWhenFits : Obligations.MeaningCompletesWhenFits := by
  intro i s off high hw hr hfit
  rw [exec_eq_instrStep i hw, ← length_eq_rom_len hw]
  exact instrStep_fits hr _ _ _ _ hfit

/-- Settles O25: a step that does not raise commits a record at `off`, so `DIS.off` moves by its length. -/
theorem linearSweepNeverFollows : Obligations.LinearSweepNeverFollows := by
  intro s t off high b hreset hr hb ht
  rw [step_of_disRun hreset hr.phase_eq] at ht
  obtain ⟨hfit, rest, rfl⟩ | ⟨hover, rfl⟩ := runStep_next_of_read hr hb ht
  · obtain ⟨hgo, hend⟩ := commit_finishIfDone_cases hr (romRecord off b rest) rfl
    rw [romRecord_len] at hgo hend
    rcases Nat.lt_or_eq_of_le hfit with hlt | heq
    · have hgo := hgo hlt
      exact ⟨fun _ => hgo, fun hidle => nomatch hidle.symm.trans hgo.phase_eq⟩
    · obtain ⟨hidle, hst, hoff⟩ := hend heq
      exact ⟨fun hrun => (nomatch hrun.symm.trans hidle), fun _ => .inl ⟨hoff, heq, hst⟩⟩
  · exact ⟨fun hrun => (nomatch hrun), fun _ => .inr ⟨hover, _, rfl⟩⟩

/-! ## Locality (R283 (e), (f)) -/

/-- The state with another code buffer. -/
def State.withCode (code : Memory) (s : State) : State := { s with input := { s.input with code } }

theorem finishIfDone_withCode (code : Memory) (s : State) :
    (s.withCode code).finishIfDone = s.finishIfDone.withCode code := by
  unfold State.finishIfDone State.withCode
  dsimp only
  split
  · split <;> rfl
  · rfl

/-- A step depends on the code buffer only through the window. -/
theorem runStep_withCode {code : Memory} {s : State} {off high : Nat} (hr : s.runningAt off high)
    (hw : fetchWindow code off high = fetchWindow s.input.code off high) :
    runStep (s.withCode code) = mapNext (State.withCode code) (runStep s) := by
  have hr' : (s.withCode code).runningAt off high := hr
  obtain ⟨-, ho, hh, hlt⟩ := id hr
  cases hc : fetchWindow s.input.code off high with
  | nil =>
    simp [runStep, State.withCode, ho, hh, Nat.not_le.mpr hlt, hw, hc, decode]
  | cons b rest =>
    have hc' : fetchWindow (s.withCode code).input.code off high = b :: rest := hw.trans hc
    rcases Nat.lt_or_ge (rest.length + 1) (rom b).len with hshort | hle
    · rw [runStep_of_short_window hr hc hshort, runStep_of_short_window hr' hc' hshort]
      unfold shortFetch
      split <;> rfl
    · rw [runStep_of_window hr hc hle, runStep_of_window hr' hc' hle]
      exact congrArg Host.Outcome.next (finishIfDone_withCode code (s.commit (romRecord off b rest)))

/-- Settles O28: buffers that read alike on the window have one window. -/
theorem bytesOutsideRangeDoNotMatter : Obligations.BytesOutsideRangeDoNotMatter := by
  intro s off high code hreset hr halike
  have hw : fetchWindow code off high = fetchWindow s.input.code off high :=
    Memory.slice_congr fun i hi => halike (off + i) (by omega) (by omega) (by omega)
  calc step (s.withCode code)
    _ = runStep (s.withCode code) := step_of_disRun hreset hr.phase_eq
    _ = mapNext (State.withCode code) (runStep s) := runStep_withCode hr hw
    _ = mapNext (State.withCode code) (step s) := by rw [step_of_disRun hreset hr.phase_eq]

end Sys2Proof.Machine
end

section
/-! `disassemble` as a function and as steps (R283, R284): the sweep covers its range exactly, and the walk from a state
reaches, in one exact state, the end that the sweep describes. -/

namespace Sys2Proof.Machine

/-! ## The sweep by cases -/

theorem sweep_cons_of_lt (fuel off : Nat) {b : Byte} {rest : List Byte} (h : rest.length + 1 < (rom b).len) :
    sweep (fuel + 1) off (b :: rest) = ([], .truncatedInstruction off b (rom b).len (rest.length + 1)) :=
  if_pos h

theorem sweep_cons_of_le (fuel off : Nat) {b : Byte} {rest : List Byte} (h : (rom b).len ≤ rest.length + 1) :
    sweep (fuel + 1) off (b :: rest) =
      (romRecord off b rest :: (sweep fuel (off + (rom b).len) (rest.drop ((rom b).len - 1))).1,
        (sweep fuel (off + (rom b).len) (rest.drop ((rom b).len - 1))).2) :=
  if_neg (Nat.not_lt.mpr h)

/-- The bytes of a range, as many as its length where it is inside the buffer. -/
theorem length_range_bytes {code : List Byte} {low high : Nat} (h : high ≤ code.length) :
    ((code.drop low).take (high - low)).length = high - low := by
  rw [List.length_take, List.length_drop]
  omega

/-- A sweep with fuel for every byte satisfies what its two endings and its emission satisfy: the induction over the walk
(R283 (a)). -/
theorem sweep_induction {P : Nat → List Byte → List Record × Status → Prop} (done : ∀ off, P off [] ([], .ok))
    (short : ∀ off b rest, rest.length + 1 < (rom b).len →
      P off (b :: rest) ([], .truncatedInstruction off b (rom b).len (rest.length + 1)))
    (emit : ∀ off b rest (res : List Record × Status), (rom b).len ≤ rest.length + 1 →
      P (off + (rom b).len) (rest.drop ((rom b).len - 1)) res →
      P off (b :: rest) (romRecord off b rest :: res.1, res.2))
    {fuel : Nat} (off : Nat) {bs : List Byte} (hfuel : bs.length ≤ fuel) : P off bs (sweep fuel off bs) := by
  induction fuel generalizing off bs with
  | zero =>
    rw [List.eq_nil_of_length_eq_zero (Nat.le_zero.mp hfuel)]
    exact done off
  | succ fuel ih =>
    cases bs with
    | nil => exact done off
    | cons b rest =>
      rcases Nat.lt_or_ge (rest.length + 1) (rom b).len with hlt | hle
      · rw [sweep_cons_of_lt fuel off hlt]
        exact short off b rest hlt
      · rw [sweep_cons_of_le fuel off hle]
        refine emit off b rest _ hle (ih _ ?_)
        rw [List.length_drop]
        exact (Nat.sub_le _ _).trans (Nat.le_of_succ_le_succ hfuel)

/-! ## The cover of the range (R283) -/

/-- What a sweep of the bytes `bs` from `off` answers: well-formed records that tile all of them, or all up to an
instruction that starts at `off + i` and passes their end. -/
def SweepCovers (off : Nat) (bs : List Byte) (res : List Record × Status) : Prop :=
  (∀ r ∈ res.1, r.wf) ∧
  ((res.2 = .ok ∧ tiles off res.1 (off + bs.length)) ∨
   ∃ i b, bs[i]? = some b ∧ bs.length < i + (rom b).len ∧ tiles off res.1 (off + i) ∧
     res.2 = .truncatedInstruction (off + i) b (rom b).len (bs.length - i))

theorem sweep_covers {fuel : Nat} (off : Nat) {bs : List Byte} (hfuel : bs.length ≤ fuel) :
    SweepCovers off bs (sweep fuel off bs) := by
  refine sweep_induction (fun off => ?_) (fun off b rest hlt => ?_) (fun off b rest res hle ih => ?_) off hfuel
  · exact ⟨fun _ hr => (nomatch hr), .inl ⟨rfl, rfl⟩⟩
  · exact ⟨fun _ hr => (nomatch hr), .inr ⟨0, b, rfl, by simpa using hlt, rfl, rfl⟩⟩
  · obtain ⟨hwf, hend⟩ := ih
    have hpos := (rom_len_bounds b).1
    have hdrop : (rest.drop ((rom b).len - 1)).length + (rom b).len = (b :: rest).length := by
      rw [List.length_drop, List.length_cons]
      omega
    refine ⟨fun r hr => ?_, ?_⟩
    · obtain rfl | hr := List.mem_cons.mp hr
      · exact romRecord_wf off b rest
      · exact hwf r hr
    obtain ⟨hok, htiles⟩ | ⟨i, c, hc, hover, htiles, hst⟩ := hend
    · refine .inl ⟨hok, rfl, ?_⟩
      rwa [← hdrop, Nat.add_comm _ (rom b).len, ← Nat.add_assoc]
    · have hci := (List.getElem?_eq_some_iff.mp hc).1
      refine .inr ⟨(rom b).len + i, c, ?_, by omega, ⟨rfl, ?_⟩, ?_⟩
      · rw [List.getElem?_drop] at hc
        rw [← hc, show (rom b).len + i = (rom b).len - 1 + i + 1 by omega, List.getElem?_cons_succ]
      · rwa [← Nat.add_assoc]
      · rw [hst, ← Nat.add_assoc, ← hdrop, show (rest.drop ((rom b).len - 1)).length + (rom b).len - ((rom b).len + i) =
          (rest.drop ((rom b).len - 1)).length - i by omega]

/-- Records that partition an interval have its length in sum (R283 (b)). -/
theorem totalLen_of_tiles {low high : Nat} {rs : List Record} (h : tiles low rs high) :
    low + totalLen rs = high := by
  induction rs generalizing low with
  | nil => exact h
  | cons r rs ih =>
    have := ih h.2
    simp only [totalLen, List.map_cons, List.sum_cons] at this ⊢
    omega

theorem Record.wf_len_bounds {r : Record} (h : r.wf) : 1 ≤ r.len ∧ r.len ≤ 3 := by
  obtain ⟨hrom, -⟩ := h
  simpa [hrom] using rom_len_bounds r.opcode

/-- Records of 1 to 3 bytes each bound their number (R283 (c)). -/
theorem length_le_totalLen {rs : List Record} (h : ∀ r ∈ rs, r.wf) :
    rs.length ≤ totalLen rs ∧ totalLen rs ≤ 3 * rs.length := by
  induction rs with
  | nil => simp [totalLen]
  | cons r rs ih =>
    obtain ⟨hr, hrs⟩ := List.forall_mem_cons.mp h
    have := ih hrs
    have := Record.wf_len_bounds hr
    simp only [totalLen, List.map_cons, List.sum_cons, List.length_cons] at *
    omega

/-- The cover, in the range's own offsets. -/
theorem sweepRange_covers {code : List Byte} {low high : Nat} (hle : low ≤ high) (hhigh : high ≤ code.length) :
    let res := sweepRange code low high
    (∀ r ∈ res.1, r.wf) ∧
    ((res.2 = .ok ∧ tiles low res.1 high) ∨
     ∃ off b, off < high ∧ high < off + (rom b).len ∧ code[off]? = some b ∧ tiles low res.1 off ∧
       res.2 = .truncatedInstruction off b (rom b).len (high - off)) := by
  have hlen := length_range_bytes (low := low) hhigh
  intro res
  obtain ⟨hwf, hend⟩ := sweep_covers low hlen.le
  refine ⟨hwf, ?_⟩
  rw [hlen] at hend
  obtain ⟨hok, htiles⟩ | ⟨i, b, hb, hover, htiles, hst⟩ := hend
  · exact .inl ⟨hok, by rwa [Nat.add_sub_of_le hle] at htiles⟩
  · have hi := (List.getElem?_eq_some_iff.mp hb).1
    rw [hlen] at hi
    rw [List.getElem?_take_of_lt hi, List.getElem?_drop] at hb
    exact .inr ⟨low + i, b, by omega, by omega, hb, htiles, by rw [Nat.sub_add_eq]; exact hst⟩

/-- Settles O30: the records tile the range, and each has 1 to 3 bytes. -/
theorem sweepCoversExactly : Obligations.SweepCoversExactly := by
  intro code low high hle hhigh res
  obtain ⟨hwf, ⟨hok, htiles⟩ | ⟨off, b, hlt, hover, hb, htiles, hst⟩⟩ := sweepRange_covers hle hhigh
  · have hsum : low + totalLen res.1 = high := totalLen_of_tiles htiles
    have hnum : res.1.length ≤ totalLen res.1 ∧ totalLen res.1 ≤ 3 * res.1.length := length_le_totalLen hwf
    exact ⟨hwf, .inl ⟨hok, htiles, by omega, by omega, by omega⟩⟩
  · have hsum : low + totalLen res.1 = off := totalLen_of_tiles htiles
    have hmax := (rom_len_bounds b).2
    exact ⟨hwf, .inr ⟨off, b, _, hst, htiles, by omega, hlt, by omega, by omega, hb, rfl⟩⟩

/-! ## The state a walk ends in -/

/-- The records `rs` emitted in order (R274), as one update: `commitAll_nil` and `commitAll_cons` say that it is the fold of
`State.commit`. -/
def State.commitAll (rs : List Record) (s : State) : State :=
  { s with
    ir := rs.getLast?.or s.ir
    out := s.out ++ rs
    dis :=
      { s.dis with
        off := (rs.getLast?.map fun r => r.offset + r.len).or s.dis.off
        count := s.dis.count + rs.length } }

/-- The records `rs` emitted and the walk ended with the status `st` of a sweep: the loop's exit (R273), or the error (R277,
R311). -/
def State.walked (rs : List Record) (st : Status) (s : State) : State :=
  match st with
  | .ok => (s.commitAll rs).endWalk
  | .truncatedInstruction off b len avail => (s.commitAll rs).raiseTruncated off b len avail
  | e => (s.commitAll rs).raise e

section

variable (r : Record) (rs : List Record) (s : State) (st : Status)

theorem commitAll_nil : s.commitAll [] = s := by
  simp [State.commitAll]

theorem commitAll_cons : s.commitAll (r :: rs) = (s.commit r).commitAll rs := by
  simp only [State.commitAll, State.commit, State.emit, List.getLast?_cons]
  cases rs.getLast? <;> simp <;> omega

theorem walked_nil_ok : s.walked [] .ok = s.endWalk := by
  rw [State.walked, commitAll_nil]

theorem walked_nil_truncated (off : Nat) (b : Byte) (len avail : Nat) :
    s.walked [] (.truncatedInstruction off b len avail) = s.raiseTruncated off b len avail := by
  rw [State.walked, commitAll_nil]

theorem walked_cons : s.walked (r :: rs) st = (s.commit r).walked rs st := by
  cases st <;> simp only [State.walked, commitAll_cons]

@[simp] theorem walked_st : (s.walked rs st).st = st := by cases st <;> rfl
@[simp] theorem walked_phase : (s.walked rs st).phase = .idle := by cases st <;> rfl
@[simp] theorem walked_job : (s.walked rs st).job = .noCommand := by cases st <;> rfl
@[simp] theorem walked_dis : (s.walked rs st).dis = (s.commitAll rs).dis := by cases st <;> rfl
@[simp] theorem walked_ir : (s.walked rs st).ir = rs.getLast?.or s.ir := by cases st <;> rfl
@[simp] theorem walked_out : (s.walked rs st).out = s.out ++ rs := by cases st <;> rfl
@[simp] theorem walked_cur : (s.walked rs st).cur = s.cur := by cases st <;> rfl
@[simp] theorem walked_hdr : (s.walked rs st).hdr = s.hdr := by cases st <;> rfl
@[simp] theorem walked_input : (s.walked rs st).input = s.input := by cases st <;> rfl
@[simp] theorem walked_host : (s.walked rs st).host = s.host := by cases st <;> rfl

theorem walked_tr_ok : (s.walked rs .ok).tr = { s.tr with present := s.tr.present || s.job.completesTune } := rfl

theorem walked_tr_truncated (off : Nat) (b : Byte) (len avail : Nat) :
    (s.walked rs (.truncatedInstruction off b len avail)).tr = { s.tr with present := false } := rfl

/-- Records that tile an interval move `DIS.off` from its start to its end (R28). -/
theorem commitAll_off {low high : Nat} {rs : List Record} {s : State} (h : tiles low rs high)
    (ho : s.dis.off = some low) : (s.commitAll rs).dis.off = some high := by
  induction rs generalizing low s with
  | nil => exact ho.trans (congrArg some h)
  | cons r rs ih =>
    rw [commitAll_cons]
    exact ih (s := s.commit r) h.2 (congrArg (fun o => some (o + r.len)) h.1)

end

/-! ## The simulation (R284) -/

/-- From a walk at `off` with the bytes `bs` still in its range, the block runs to the end that `res` describes, a step a
record and one for the error. -/
def WalkReaches (off : Nat) (bs : List Byte) (res : List Record × Status) : Prop :=
  ∀ (s : State) (high : Nat), s.host.reset = false → s.phase = .disRun → s.dis.off = some off →
    s.dis.high = some high → s.input.code.wf = true → high ≤ s.input.code.size →
    bs = (s.input.code.bytes.drop off).take (high - off) →
    ∃ k ≤ bs.length, Sys2Proof.core.run k s.finishIfDone = .next (s.walked res.1 res.2)

/-- Where a range inside the buffer has the bytes `b :: rest`, `b` is the opcode byte, the window is the first three of them,
and what an instruction of length `len` leaves of them is the rest of the range. -/
theorem range_bytes_eq_cons {m : Memory} {off high : Nat} (hwf : m.wf = true) (hsize : high ≤ m.size) {b : Byte}
    {rest : List Byte} (h : b :: rest = (m.bytes.drop off).take (high - off)) :
    rest.length + 1 = high - off ∧ m.read? off = some b ∧ fetchWindow m off high = b :: rest.take 2 ∧
    ∀ len, 1 ≤ len → rest.drop (len - 1) = (m.bytes.drop (off + len)).take (high - (off + len)) := by
  have hlen : rest.length + 1 = high - off := by
    rw [← length_range_bytes (code := m.bytes) (by rwa [Memory.length_bytes]), ← h, List.length_cons]
  have hw : fetchWindow m off high = b :: rest.take 2 := by
    rw [fetchWindow, Memory.slice_of_wf hwf, ← List.take_take, ← h]
    rfl
  refine ⟨hlen, ?_, hw, fun len hpos => ?_⟩
  · exact Memory.read?_of_getElem?_slice (i := 0) (congrArg (·[0]?) hw)
  · obtain ⟨n, rfl⟩ : ∃ n, len = n + 1 := ⟨len - 1, by omega⟩
    rw [Nat.sub_add_eq, ← List.drop_drop, ← List.drop_take, ← h, List.drop_succ_cons, Nat.add_sub_cancel]

theorem sweep_reached {fuel : Nat} (off : Nat) {bs : List Byte} (hfuel : bs.length ≤ fuel) :
    WalkReaches off bs (sweep fuel off bs) := by
  refine sweep_induction (fun off => ?_) (fun off b rest hshort => ?_) (fun off b rest res hle ih => ?_) off hfuel <;>
    intro s high hreset hp ho hh hwf hsize hbs
  · have hempty : high ≤ off := by
      have hlen := congrArg List.length hbs
      rw [List.length_nil, length_range_bytes (by rwa [Memory.length_bytes])] at hlen
      omega
    rw [walked_nil_ok, State.finishIfDone_of_le s hp ho hh hempty]
    exact ⟨0, le_rfl, rfl⟩
  · obtain ⟨hlen, hb, -⟩ := range_bytes_eq_cons hwf hsize hbs
    have hr : s.runningAt off high := ⟨hp, ho, hh, by omega⟩
    have hstep := (step_of_disRun hreset hp).trans (runStep_truncated hr hb (by omega))
    rw [← hlen] at hstep
    rw [walked_nil_truncated, State.finishIfDone_of_lt s ho hh hr.lt]
    exact ⟨1, by simp, run_succ_of_next (M := core) (k := 0) hstep⟩
  · obtain ⟨hlen, -, hw, hdrop⟩ := range_bytes_eq_cons hwf hsize hbs
    obtain ⟨hpos, hmax⟩ := rom_len_bounds b
    have hr : s.runningAt off high := ⟨hp, ho, hh, by omega⟩
    have hstep := (step_of_disRun hreset hp).trans
      (runStep_of_window hr hw (by rw [List.length_take]; omega))
    rw [romRecord_take] at hstep
    obtain ⟨k, hk, hrun⟩ := ih (s.commit (romRecord off b rest)) high hreset hp rfl hh hwf hsize (hdrop _ hpos)
    rw [walked_cons, State.finishIfDone_of_lt s ho hh hr.lt]
    refine ⟨k + 1, ?_, (run_succ_of_next (M := core) hstep).trans hrun⟩
    rw [List.length_drop] at hk
    rw [List.length_cons]
    omega

/-- A walk over a range inside its buffer runs to the one end that the sweep of the range describes. -/
theorem run_sweepRange {s : State} {off high : Nat} (hreset : s.host.reset = false) (hp : s.phase = .disRun)
    (ho : s.dis.off = some off) (hh : s.dis.high = some high) (hwf : s.input.code.wf = true)
    (hsize : high ≤ s.input.code.size) :
    ∃ k ≤ high - off, Sys2Proof.core.run k s.finishIfDone =
      .next (s.walked (sweepRange s.input.code.bytes off high).1 (sweepRange s.input.code.bytes off high).2) := by
  have hlen : ((s.input.code.bytes.drop off).take (high - off)).length = high - off :=
    length_range_bytes (by rwa [Memory.length_bytes])
  obtain ⟨k, hk, hrun⟩ := sweep_reached off hlen.le s high hreset hp ho hh hwf hsize rfl
  exact ⟨k, hlen ▸ hk, hrun⟩

end Sys2Proof.Machine
end

section
/-! The walk and the two commands that decode, from their first step to their end: one exact end state each, from which the
statements are read off (R270 to R273, R284, R290, R291). -/

namespace Sys2Proof.Machine

/-! ## The end of a walk (R284) -/

/-- A sweep of a range inside its buffer ends `OK` or with `TruncatedInstruction`, and so does the walk, with what that does
to `TR` (R40, R291, R311). -/
theorem walked_tr_cases {code : List Byte} (low : Nat) {high : Nat} (hhigh : high ≤ code.length) (s : State) :
    let res := sweepRange code low high
    (res.2 = .ok ∧ (s.walked res.1 res.2).tr = { s.tr with present := s.tr.present || s.job.completesTune }) ∨
    (res.2 ≠ .ok ∧ (s.walked res.1 res.2).tr = { s.tr with present := false }) := by
  intro res
  obtain ⟨-, ⟨hok, -⟩ | ⟨i, b, -, -, -, hst⟩⟩ := sweep_covers low (length_range_bytes (low := low) hhigh).le
  · have hok : res.2 = .ok := hok
    rw [hok]
    exact .inl ⟨rfl, walked_tr_ok _ _⟩
  · have hst : res.2 = .truncatedInstruction _ _ _ _ := hst
    rw [hst]
    exact .inr ⟨by simp, walked_tr_truncated _ _ _ _ _ _⟩

/-- A walk that ends `OK` has come to `high`, and one that raises stands at its failing instruction (R273, R277). -/
theorem walked_off {code : List Byte} {low high : Nat} (hle : low ≤ high) (hhigh : high ≤ code.length) {s : State}
    (ho : s.dis.off = some low) :
    let res := sweepRange code low high
    (res.2 = .ok → (s.walked res.1 res.2).dis.off = some high) ∧
    ∀ o b l a, res.2 = .truncatedInstruction o b l a → (s.walked res.1 res.2).dis.off = some o := by
  intro res
  rw [walked_dis]
  obtain ⟨-, ⟨hok, htiles⟩ | ⟨off, b, -, -, -, htiles, hst⟩⟩ := sweepRange_covers hle hhigh
  · exact ⟨fun _ => commitAll_off htiles ho, fun _ _ _ _ h => nomatch hok.symm.trans h⟩
  · refine ⟨fun h => (nomatch hst.symm.trans h), fun o c l a h => ?_⟩
    cases hst.symm.trans h
    exact commitAll_off htiles ho

/-- Settles O29: the run ends in `State.walked` of the sweep, whose registers are the sweep's. -/
theorem walkRefinesSweep : Obligations.WalkRefinesSweep := by
  intro s off high hreset hr hwf hsize res
  obtain ⟨hp, ho, hh, hlt⟩ := id hr
  have hhigh : high ≤ s.input.code.bytes.length := by rwa [Memory.length_bytes]
  obtain ⟨k, hk, hrun⟩ := run_sweepRange hreset hp ho hh hwf hsize
  rw [State.finishIfDone_of_lt s ho hh hlt] at hrun
  obtain ⟨hoffOk, hoffTruncated⟩ := walked_off hlt.le hhigh ho
  refine ⟨k, _, hk, hrun, walked_phase _ _ _, walked_job _ _ _, walked_st _ _ _, walked_out _ _ _, by rw [walked_dis]; rfl,
    walked_ir _ _ _, hoffOk, hoffTruncated, ?_, ?_, walked_hdr _ _ _, walked_input _ _ _, walked_host _ _ _⟩ <;>
    obtain ⟨hst, htr⟩ | ⟨hst, htr⟩ := walked_tr_cases off hhigh s <;> rw [htr]
  · simp [show res.2 = .ok from hst]
  · simp [show res.2 ≠ .ok from hst]

/-! ## The walk of a command (R270, R272, R290) -/

/-- The start of a walk, before the loop's first test. -/
def State.starting (base : Word) (low high : Nat) (job : Job) (s : State) : State :=
  { s with
    dis := { off := some low, low := some low, high := some high, base := some base, count := 0 }
    phase := .disRun
    job := job }

/-- An accepted walk, also over an empty range, runs to the end that the sweep describes. -/
theorem run_startWalk {s : State} {code : List Byte} (hcode : s.input.code = Memory.ofBytes code)
    (hreset : s.host.reset = false) (base : Word) (low : Nat) {high : Nat} (hhigh : high ≤ code.length) (job : Job) :
    ∃ k ≤ high - low, Sys2Proof.core.run k (s.startWalk base low high job) =
      .next ((s.starting base low high job).walked (sweepRange code low high).1 (sweepRange code low high).2) := by
  have hcode' : (s.starting base low high job).input.code = Memory.ofBytes code := hcode
  have h := run_sweepRange (s := s.starting base low high job) hreset rfl rfl rfl (by simp [hcode'])
    (by simpa [hcode'] using hhigh)
  rwa [hcode', Memory.bytes_ofBytes] at h

/-! ## `disassemble` -/

theorem disassemble_outOfBounds {code : List Byte} (base : Word) (low : Option Nat) {high : Option Nat}
    (h : code.length < high.getD code.length) (s : State) :
    disassemble code base low high s = s.raise (.outOfBounds (low.getD 0) (high.getD code.length) code.length) :=
  if_pos h

theorem disassemble_inBounds {code : List Byte} (base : Word) (low : Option Nat) {high : Option Nat}
    (h : high.getD code.length ≤ code.length) (s : State) :
    disassemble code base low high s =
      (s.withCode (Memory.ofBytes code)).startWalk base (low.getD 0) (high.getD code.length) .disassemble :=
  if_neg (Nat.not_lt.mpr h)

/-- Settles O31: the acceptance is one step, and the walk it starts runs to the end of the sweep. -/
theorem disassembleCommandWhole : Obligations.DisassembleCommandWhole := by
  intro s cfg code base low high rs htakes ha hhigh lo hi res
  obtain ⟨hreset, -⟩ := id htakes
  have hstep := step_disassemble htakes ha
  rw [disassemble_inBounds base low hhigh] at hstep
  obtain ⟨k, hk, hrun⟩ := run_startWalk (s := (s.taking cfg rs).withCode (Memory.ofBytes code)) rfl hreset base lo hhigh
    .disassemble
  refine ⟨k + 1, _, by omega, (run_succ_of_next (M := core) hstep).trans hrun, ?_⟩
  have htr := walked_tr_cases lo hhigh
    (((s.taking cfg rs).withCode (Memory.ofBytes code)).starting base lo hi .disassemble)
  refine ⟨walked_phase _ _ _, walked_job _ _ _, walked_st _ _ _, walked_out _ _ _, ?_, ?_, ?_, ?_, walked_cur _ _ _,
    walked_hdr _ _ _, ?_, fun hok => ?_, fun herr => ?_⟩
  · rw [walked_dis]; exact Nat.zero_add _
  · rw [walked_dis]; rfl
  · rw [walked_dis]; rfl
  · rw [walked_dis]; rfl
  · rw [walked_host]; rfl
  · obtain ⟨-, htr⟩ | ⟨hst, -⟩ := htr
    · exact htr.trans (congrArg (fun p => { s.tr with present := p }) (Bool.or_false _))
    · exact absurd hok hst
  · obtain ⟨hst, -⟩ | ⟨-, htr⟩ := htr
    · exact absurd hst herr
    · exact htr

/-- Settles O33: the range check is the first thing an accepted `disassemble` does, and an empty range ends at once. -/
theorem disassembleRangeChecked : Obligations.DisassembleRangeChecked := by
  intro s cfg code base low high rs htakes ha
  constructor
  · intro hout
    refine ⟨_, step_disassemble htakes ha, ?_⟩
    rw [disassemble_outOfBounds base low hout]
    exact ⟨rfl, rfl, rfl⟩
  · intro hhigh hempty
    refine ⟨_, step_disassemble htakes ha, ?_⟩
    rw [disassemble_inBounds base low hhigh, State.startWalk_of_le _ _ _ hempty]
    exact ⟨rfl, rfl, rfl, rfl, rfl⟩

/-- Settles O34: an out-of-range `disassemble` is a raise, which writes neither register group nor buffer. -/
theorem outOfRangeLeavesDis : Obligations.OutOfRangeLeavesDis := by
  intro s t cfg code base low high rs htakes ha hout ht
  rw [step_disassemble htakes ha, disassemble_outOfBounds base low hout] at ht
  cases ht
  exact ⟨rfl, rfl, rfl, rfl, rfl, rfl⟩

/-! ## The header stage -/

theorem headerStage_truncated (cfg : Config) {b : List Byte} (hl : b.length < hdrLen) (s : State) :
    headerStage cfg b s = .error (({ s with hdr := none }).raise (.truncatedInput b.length)) :=
  if_pos hl

theorem headerStage_invalidMagic {cfg : Config} {b : List Byte} (hl : hdrLen ≤ b.length) (hs : cfg.strictMagic = true)
    (hb : b.take 5 ≠ cfg.magic.toList) (s : State) :
    headerStage cfg b s =
      .error (({ s with
        input := { s.input with buf := Memory.ofBytes b }, cur := some hdrLen, hdr := none }).raise
          (.invalidMagic (b.take 5))) := by
  obtain ⟨hlt, -⟩ | ⟨-, -, -, h⟩ | ⟨-, hm, -⟩ := headerStage_outcomes cfg b s
  · omega
  · exact h
  · simp [hs, hb] at hm

/-- Settles O41: the header stage raises `TruncatedInput` or `InvalidMagic`, or it ends `OK`. -/
theorem headerNeverOutOfBounds : Obligations.HeaderNeverOutOfBounds := by
  intro s cfg b first second len
  obtain ⟨-, h⟩ | ⟨-, -, -, h⟩ | ⟨-, -, h⟩ := headerStage_outcomes cfg b s <;> simp [decodeHeader, h]

/-- The load address is the word at offset 8 (R90, R145). -/
theorem headerAt_loadAddr (cfg : Config) (b : List Byte) :
    (headerAt cfg b).loadAddr = wordLE (b.getD 8 0#8) (b.getD 9 0#8) :=
  BitVec.eq_of_toNat_eq ((toNat_wordLE_take_drop b 8).trans (toNat_wordLE _ _).symm)

/-! ## `analyze` -/

/-- An error of the header stage ends `analyze` (R290, R298). -/
theorem analyze_of_error {cfg : Config} {file : List Byte} {s t : State}
    (h : headerStage cfg file { s with tr := { s.tr with present := false } } = .error t) (name : String) :
    analyze cfg file name s = t := by
  simp only [analyze, h]

/-- Settles O44: an error of the header stage is a raise with `H` absent, after `TR.present` was cleared. -/
theorem analyzeHeaderErrorsEndIt : Obligations.AnalyzeHeaderErrorsEndIt := by
  intro s cfg file name rs htakes ha
  constructor
  · intro hl
    refine ⟨_, step_analyze htakes ha, ?_⟩
    rw [analyze_of_error (headerStage_truncated cfg hl _)]
    exact ⟨rfl, rfl, rfl, rfl, rfl, rfl⟩
  · intro hl hs hb
    refine ⟨_, step_analyze htakes ha, ?_⟩
    rw [analyze_of_error (headerStage_invalidMagic hl hs hb _)]
    exact ⟨rfl, rfl, rfl, rfl, rfl, rfl⟩

/-- What the header stage of `analyze` leaves, deferred or not, and the disassembly stage due if not (R290 to R297). -/
theorem analyze_fields {cfg : Config} {file : List Byte} (hl : hdrLen ≤ file.length)
    (hm : cfg.strictMagic = false ∨ file.take 5 = cfg.magic.toList) (name : String) (s : State) :
    let t := analyze cfg file name s
    let load := (headerAt cfg file).loadAddr
    t.hdr = some (headerAt cfg file) ∧ t.phase = s.phase ∧ t.out = s.out ∧ t.host = s.host ∧
    t.tr = { tuneFields cfg name load (file.drop hdrLen) with present := cfg.deferDisasm } ∧
    (cfg.deferDisasm = false →
      t.job = .analyzeDue ∧ t.input.code = Memory.ofBytes (clipCode cfg load (file.drop hdrLen))) ∧
    (cfg.deferDisasm = true → t.job = s.job) := by
  rw [analyze, headerStage_ok hl hm]
  cases hdefer : cfg.deferDisasm <;> simp [tuneFields, hdefer]

/-- Clipping removes bytes exactly when it is asked for and the code passes the top of the space (R295). -/
theorem clippedOf_eq_true_iff {cfg : Config} {load : Word} {size : Nat} :
    clippedOf cfg load size = true ↔ cfg.clipTo64k = true ∧ 0x10000 - load.toNat < size := by
  rw [clippedOf, Bool.and_eq_true, decide_eq_true_iff, clipLimit]

/-- Settles O42: the computed registers are `tuneFields` of the load address and the unclipped code. -/
theorem analyzeComputesTuneFields : Obligations.AnalyzeComputesTuneFields := by
  intro s cfg file name rs htakes ha hl hm load size cut
  obtain ⟨-, hphase, hjob, -⟩ := id htakes
  obtain ⟨hhdr, hp, -, -, htr, hdue, hend⟩ := analyze_fields hl hm name (s.taking cfg rs)
  have hload : (headerAt cfg file).loadAddr.toNat = load := toNat_wordLE_take_drop file 8
  have hsize : (file.drop hdrLen).length = size := List.length_drop
  have hcut : clippedOf cfg (headerAt cfg file).loadAddr size = true ↔ cut := by
    rw [clippedOf_eq_true_iff, hload]
  refine ⟨_, _, clipCode cfg (headerAt cfg file).loadAddr (file.drop hdrLen), step_analyze htakes ha, hhdr, hload, ?_⟩
  rw [htr]
  simp only [tuneFields, hsize]
  refine ⟨trivial, trivial, trivial, fun h0 => ?_, fun h0 => ?_, ?_, fun hc => ?_, fun hc => ?_, trivial, hp.trans hphase,
    fun hd => ?_, fun hd => ?_⟩
  · simp [lastCodeAddrOf, h0]
  · simp [lastCodeAddrOf, hload, h0.ne']
  · simp [addrOverflowOf, hload]
  · have hc := hcut.mpr hc
    rw [droppedOf, clipCode, hsize, if_pos hc, if_pos hc, clipLimit, hload]
    exact ⟨congrArg some hc, rfl, rfl⟩
  · have hc := mt hcut.mp hc
    rw [droppedOf, clipCode, hsize, if_neg hc, if_neg hc]
    exact ⟨congrArg some (Bool.eq_false_of_not_eq_true hc), rfl, rfl⟩
  · obtain ⟨hjobDue, hcode⟩ := hdue hd
    exact ⟨hd, by simp [hd], by rw [hcode, Memory.bytes_ofBytes], hjobDue⟩
  · exact ⟨hd, by simp [hd], (hend hd).trans hjob⟩

/-- The step of a block whose disassembly stage of `analyze` is due starts the walk (R290). -/
theorem step_of_due {s : State} {h : Header} (hreset : s.host.reset = false) (hp : s.phase = .idle)
    (hj : s.job = .analyzeDue) (hh : s.hdr = some h) :
    step s = .next (s.startWalk h.loadAddr 0 s.input.code.size .analyze) := by
  simp [step, idleStep, acceptStage, hreset, hp, hj, hh]

/-- Settles O45: the header stage and the acceptance are one step each, and the walk runs to the end of the sweep. -/
theorem analyzeCommandWhole : Obligations.AnalyzeCommandWhole := by
  intro s cfg file name rs htakes ha hl hm hdefer load dcode res
  obtain ⟨hreset, hp, -, -⟩ := id htakes
  have hload : (headerAt cfg file).loadAddr = load := headerAt_loadAddr cfg file
  obtain ⟨hhdr, hp', hout, hhost, htr, hdue, -⟩ := analyze_fields hl hm name (s.taking cfg rs)
  obtain ⟨hj, hcode⟩ := hdue hdefer
  have hfirst := step_analyze htakes ha
  generalize analyze cfg file name (s.taking cfg rs) = u at *
  replace hcode : u.input.code = Memory.ofBytes dcode := by rw [hcode, hload]; rfl
  have hreset' : u.host.reset = false := (congrArg HostPort.reset hhost).trans hreset
  have hsecond := step_of_due hreset' (hp'.trans hp) hj hhdr
  rw [hload, hcode, Memory.size_ofBytes] at hsecond
  obtain ⟨k, hk, hrun⟩ := run_startWalk hcode hreset' load 0 le_rfl .analyze
  have htune : ((u.starting load 0 dcode.length .analyze).walked res.1 res.2).tr =
      { u.tr with present := decide (res.2 = .ok) } := by
    obtain ⟨hst, h⟩ | ⟨hst, h⟩ :=
        walked_tr_cases 0 (le_refl dcode.length) (u.starting load 0 dcode.length .analyze) <;>
      refine h.trans (congrArg (fun p => { u.tr with present := p }) ?_)
    · simp [res, hst, State.starting]
    · simp [res, hst]
  refine ⟨k + 1 + 1, _, _, by omega,
    (run_succ_of_next (M := core) hfirst).trans ((run_succ_of_next (M := core) hsecond).trans hrun), walked_phase _ _ _,
    walked_job _ _ _, (walked_hdr _ _ _).trans hhdr, hload, walked_st _ _ _, ?_, ?_, ?_, ?_, ?_, ?_, ?_, ?_⟩
  · exact (walked_out _ _ _).trans (congrArg (· ++ res.1) hout)
  · rw [walked_dis]; rfl
  · rw [walked_dis]; rfl
  · rw [walked_dis]; rfl
  · rw [htune]; simp
  · rw [htune, htr]; rfl
  · rw [htune, htr]; exact congrArg some List.length_drop
  · rw [walked_host]; exact congrArg HostPort.requests hhost

end Sys2Proof.Machine
end

section
/-! The codes of the errors, reset, waiting (R300, R321, R331, R332), and which steps stop: none faults from a state that
meets the invariant, and a refusal is the host's request (R271, R286, U17). -/

namespace Sys2Proof.Machine

/-- Settles O53: each code is read off `Status.code`. -/
theorem errorKindCodes : Obligations.ErrorKindCodes := fun _ _ _ _ _ _ _ _ => ⟨rfl, rfl, rfl, rfl, rfl⟩

/-- Settles O55: the reset comes before anything else, and it is the reset state but for the stream and the host. -/
theorem resetEventClearsRegisters : Obligations.ResetEventClearsRegisters := fun _ hreset =>
  ⟨_, if_pos hreset, rfl, rfl, rfl, rfl, rfl, rfl, rfl, rfl, rfl, rfl⟩

/-- Without a reset, a step of an idle block is the idle step (R346). -/
theorem step_of_idle {s : State} (hreset : s.host.reset = false) (hp : s.phase = .idle) : step s = idleStep s := by
  simp [step, hreset, hp]

/-- Settles O56: with no stage due and no request the idle step waits. -/
theorem idleBlockWaits : Obligations.IdleBlockWaits := by
  intro s hreset hp hj hreq
  rw [step_of_idle hreset hp]
  simp [idleStep, hj, hreq]

/-! ## Steps that do not stop -/

/-- A running walk that meets the invariant has its range inside its buffer, so its step answers (R271, R283). -/
theorem State.Inv.runStep_answers {s : State} (h : s.Inv) (hp : s.phase = .disRun) : ∃ t, runStep s = .next t := by
  obtain ⟨-, low, off, high, base, -, ho, hh, -, -, hlt, hsize, -⟩ := h.running hp
  exact runStep_answers_of_range ⟨hp, ho, hh, hlt⟩ fun a _ ha =>
    (Memory.read?_isSome_of_wf h.codeWf a).mpr (ha.trans_le hsize)

/-- The due stage of `analyze` has its header record (R298). -/
theorem State.Inv.acceptStage_answers {s : State} (h : s.Inv) (hj : s.job = .analyzeDue) :
    ∃ t, acceptStage s = .next t := by
  obtain ⟨hsome, -⟩ := h.due hj
  obtain ⟨hd, hh⟩ := Option.isSome_iff_exists.mp hsome
  exact ⟨_, by rw [acceptStage, hh]⟩

/-- From the invariant a step answers a next state, or an idle block issues the host's first request. -/
theorem State.Inv.step_answers {s : State} (h : s.Inv) :
    (∃ t, step s = .next t) ∨
    (s.phase = .idle ∧ ∃ r rs, s.host.requests = r :: rs ∧
      step s = issue r { s with host := { s.host with requests := rs } }) := by
  obtain ⟨-, hs⟩ | ⟨-, hp, hs⟩ | ⟨-, hp, hs⟩ := step_cases s <;> rw [hs]
  · exact .inl ⟨_, rfl⟩
  · exact .inl (h.runStep_answers hp)
  · obtain ⟨hj, hi⟩ | ⟨-, -, hi⟩ | ⟨-, r, rs, hr, hi⟩ := idleStep_cases s <;> rw [hi]
    · exact .inl (h.acceptStage_answers hj)
    · exact .inl ⟨_, rfl⟩
    · exact .inr ⟨hp, r, rs, hr, rfl⟩

theorem issue_ne_fault (r : Request) (s : State) (f : Fault) : issue r s ≠ .fault f := by
  obtain ⟨_, h⟩ | ⟨_, -, h⟩ | ⟨_, _, _, _, -, h⟩ | ⟨_, _, -, h⟩ := issue_cases r s <;> simp [h]

/-- A command that decodes is refused for its configuration or for its length (U2, U16, U17). -/
theorem decodingRefusal_eq_some {cfg : Config} {len : Nat} {why : Refusal}
    (h : (cfgRefusal cfg).or (lengthRefusal cfg len) = some why) :
    cfg.admitted = false ∨ ∃ max, cfg.maxBufLen = some max ∧ max < len := by
  obtain hc | ⟨-, hl⟩ := Option.or_eq_some_iff.mp h
  · refine .inl (Bool.eq_false_of_not_eq_true fun ha => ?_)
    cases hc.symm.trans (cfgRefusal_eq_none.mpr ha)
  · obtain ⟨max, hmax, hlt, -⟩ := lengthRefusal_eq_some.mp hl
    exact .inr ⟨max, hmax, hlt⟩

/-- Settles O60: only the issue of a request can stop, and it is refused for what the request holds. -/
theorem invariantStepsDoNotStop : Obligations.InvariantStepsDoNotStop := by
  intro s h
  obtain ⟨t, ht⟩ | ⟨hp, r, rs, hr, hi⟩ := h.step_answers
  · exact ⟨fun f hf => (nomatch ht.symm.trans hf), fun why hw => (nomatch ht.symm.trans hw)⟩
  refine ⟨fun f => hi ▸ issue_ne_fault r _ f, fun why hw => ⟨hp, r, rs, hr, ?_⟩⟩
  obtain ⟨cfg, cmd⟩ := r
  have href : Request.refusal ⟨cfg, cmd⟩ = some why := issue_eq_refused_iff.mp (hi.symm.trans hw)
  cases cmd with
  | decodeHeader bytes =>
    obtain ⟨max, hmax, hlt, -⟩ := lengthRefusal_eq_some.mp href
    exact .inr ⟨max, hmax, bytes, hlt, .inl rfl⟩
  | disassemble bytes base low high =>
    exact (decodingRefusal_eq_some href).imp_right fun ⟨max, hmax, hlt⟩ =>
      ⟨max, hmax, bytes, hlt, .inr (.inl ⟨base, low, high, rfl⟩)⟩
  | analyze bytes name =>
    exact (decodingRefusal_eq_some href).imp_right fun ⟨max, hmax, hlt⟩ =>
      ⟨max, hmax, bytes, hlt, .inr (.inr ⟨name, rfl⟩)⟩

end Sys2Proof.Machine
end
